-- ==== Sys2Proof/Word.lean ====
section
/-! DEFINITION. The plain data of the OB416: bytes, words, addresses and the numbers of tags, groups and regions
(00_scope.md, Conventions). -/

namespace Sys2Proof

/-- One byte. -/
abbrev Byte := BitVec 8

/-- A memory word: 8 bytes, read as a number whose byte 0 (the lowest-addressed one) is least significant (R21). -/
abbrev Word64 := BitVec 64

/-- A host or memory byte address (00_scope.md, Numbers and addresses). -/
abbrev Addr := BitVec 32

/-- An epoch number or a serial, modulo 65536 (R66, R146). -/
abbrev Half := BitVec 16

/-- A host tag, 0-63 (R111). -/
abbrev Tag := Fin 64

/-- A region index, 0-15 (R1). -/
abbrev RegionIx := Fin 16

/-- A flip group index, 0-3 (R66). -/
abbrev GroupIx := Fin 4

/-- Every region index in ascending order. -/
def allRegions : List RegionIx := [0, 1, 2, 3, 4, 5, 6, 7, 8, 9, 10, 11, 12, 13, 14, 15]

/-- Every group index in ascending order. -/
def allGroups : List GroupIx := [0, 1, 2, 3]

end Sys2Proof
end

