-- ==== Sys2Proof/Syntax.lean ====
section
/-! DEFINITION. The commands of the OB416: one constructor for each row of opcode_table.json, with its operands. -/

namespace Sys2Proof

/-- One word of a host WRITE: its byte mask (mask bit i is 1 when byte i is written) and its data (R111). -/
structure WriteWord where
  mask : Byte
  data : Word64
  deriving DecidableEq, Repr

/-- The kind of a host request (R111). A READ carries a length, 0-31 words; a WRITE carries its words, and its length
is their number. -/
inductive RequestKind where
  | read (length : Fin 32)
  | write (words : List WriteWord)
  deriving DecidableEq, Repr

/-- One request of the host link (R111). The link carries the start address as a word address, so it has no low bits. -/
structure HostRequest where
  tag : Tag
  wordAddress : BitVec 29
  kind : RequestKind
  deriving DecidableEq, Repr

/-- One response of the memory link (R127): a READ answered OK or DATA_ERROR with its data, a WRITE answered OK or
WRITE_ERROR, or a PROBE answered with its number. -/
inductive MemResponse where
  | read (ok : Bool) (data : Word64)
  | write (ok : Bool)
  | probe (number : Byte)
  deriving DecidableEq, Repr

/-- The arrival of a response: its moment, and whether the response to the request behind the oldest has arrived by then too, to be
taken after this one (R135; log 3). -/
structure Arrival where
  moment : Nat
  nextArrived : Bool
  deriving DecidableEq, Repr

/-- The commands of the part. A management command stands for the completion of a request frame that passes the checks of
R173 (log 5); its operands are the frame's parameter bytes in their order (R180, R181), filling
bytes included. `now` is the moment of the event in microseconds. -/
inductive Instr where
  /-- HOST_REQUEST (R113): a request may arrive on the request channel, and an IDLE intake takes the one at the head. -/
  | hostRequest (arriving : Option HostRequest)
  /-- CONTRIBUTION (R42): the intake presents the next, or the stalled, word of its open LIVE write. -/
  | contribution
  /-- STALLED_READ_PRESENTED (R61): the intake presents its stalled LIVE read again. -/
  | stalledReadPresented
  /-- GRANT (R131): the arbiter makes one grant. -/
  | grant (now : Nat)
  /-- RESPONSE_TAKEN (R129): a response arrives on the memory link. -/
  | responseTaken (response : MemResponse) (now : Arrival)
  /-- RESPONSE_TIMEOUT (R135): the deadline of the oldest outstanding request passes. -/
  | responseTimeout
  /-- PROBE_ANSWERED (R139): a PROBE response arrives. -/
  | probeAnswered (number : Byte)
  /-- PROBE_TIMEOUT (R139): the deadline of the probe passes. -/
  | probeTimeout
  /-- FLIP_EDGE (R72): a rising edge on the FLIP input. -/
  | flipEdge
  /-- RESET (R169): the RESET input is asserted and released (log 16). -/
  | reset
  /-- TRANSFER_END (R170): MSEL rises. `unexecuted` are the bytes clocked in that made no executed frame: an incomplete
  frame, or what followed the end of a complete one. -/
  | transferEnd (unexecuted : List Byte)
  /-- BAD_FRAME (R173): a complete request frame arrives that the frame receiver refuses. -/
  | badFrame (frame : List Byte)
  /-- STATUS (R178). -/
  | status
  /-- REGION_WRITE (R4): the index, a filling byte, and bytes 0-41 of the region record layout (R180). -/
  | regionWrite (params : Vector Byte 44)
  /-- REGION_READ (R6). -/
  | regionRead (index fill : Byte)
  /-- GROUP_SET (R93): the group index and the pin-driven code. -/
  | groupSet (group pin : Byte)
  /-- GROUP_READ (R94). -/
  | groupRead (group fill : Byte)
  /-- ARM (R158): the option code. -/
  | arm (option fill : Byte)
  /-- DISARM (R163, R164). -/
  | disarm
  /-- FLIP (R71). -/
  | flip (group fill : Byte)
  /-- RELEASE (R85). -/
  | release (group fill : Byte)
  /-- EVENT_TAKE (R150). -/
  | eventTake
  /-- ATTN_MASK_SET (R152): the mask, its high byte first (R181). -/
  | attnMaskSet (high low : Byte)
  /-- ATTN_MASK_READ (R152). -/
  | attnMaskRead
  /-- PORT_SET (R140): the response timeout in microseconds, then the scrub share. -/
  | portSet (timeout share : Byte)
  /-- PORT_RECOVER (R138). -/
  | portRecover (now : Nat)
  /-- SCRUB_STATUS (R110). -/
  | scrubStatus
  /-- QUEUE_PEEK (R65): the age position. -/
  | queuePeek (position fill : Byte)
  deriving DecidableEq, Repr

end Sys2Proof
end

