-- ==== Sys2Proof/Decode.lean ====
section
/-! DEFINITION. Reading commands from their bits: the table's words (no row of opcode_table.json has bits), and the frames of
the management link (R171 to R173, R181), with the frame of each management command beside them. -/

namespace Sys2Proof

/-- No row of opcode_table.json gives bits ("fields" is empty and no row has "fixed"), so no word spells a command. -/
def decodeTableWord (_nbits _w : Nat) : Option Instr := none

/-- One bit of the check value (R172): shift one place, and add 07H when the bit shifted out differs from the message bit. -/
def crcBit (register : Byte) (bit : Bool) : Byte :=
  if register.msb == bit then register <<< 1 else (register <<< 1) ^^^ 0x07#8

/-- One byte of the check value, most significant bit first (R172). -/
def crcByte (register b : Byte) : Byte :=
  [7, 6, 5, 4, 3, 2, 1, 0].foldl (fun r i => crcBit r (b.getLsbD i)) register

/-- The CRC byte of a message, from register 00H (R172). -/
def crc8 (message : List Byte) : Byte := message.foldl crcByte 0#8

/-- A frame of the link: its first byte (command code or status code), the number of pairs, the pairs, and the CRC (R171). -/
def sealFrame (first : Byte) (body : List Byte) : List Byte :=
  let covered := first :: BitVec.ofNat 8 (body.length / 2) :: body
  covered ++ [crc8 covered]

/-- The fixed number of parameter pairs of each command code (R181); none for a code not in the list. -/
def fixedPairs (code : Byte) : Option Nat :=
  match code.toNat with
  | 0x01 => some 0
  | 0x02 => some 22
  | 0x03 => some 1
  | 0x04 => some 1
  | 0x05 => some 1
  | 0x06 => some 1
  | 0x07 => some 0
  | 0x08 => some 1
  | 0x09 => some 1
  | 0x0A => some 0
  | 0x0B => some 1
  | 0x0C => some 0
  | 0x0D => some 1
  | 0x0E => some 0
  | 0x0F => some 0
  | 0x10 => some 1
  | _ => none

/-- The most pairs a length byte may count (R171). -/
def maxPairs : Nat := 30

/-- The request frame is complete (R171): its CRC byte has been received whole, or its length byte is above 30 and the frame
ends there. -/
def frameComplete (frame : List Byte) : Bool :=
  match frame with
  | _ :: n :: rest => if maxPairs < n.toNat then rest.isEmpty else rest.length == 2 * n.toNat + 1
  | _ => false

/-- The frame receiver refuses a complete frame (R173): a length above 30, a wrong CRC, a code not in the list, or a length
that is not the command's. -/
def frameRefused (frame : List Byte) : Bool :=
  match frame with
  | code :: n :: _ =>
    decide (maxPairs < n.toNat) || frame.getLast? != some (crc8 frame.dropLast) || fixedPairs code != some n.toNat
  | _ => false

/-- The command code and the parameter bytes of a management command (R180, R181); none for a command that is no frame. -/
def frameParts (c : Instr) : Option (Byte × List Byte) :=
  match c with
  | .status => some (0x01#8, [])
  | .regionWrite params => some (0x02#8, params.toList)
  | .regionRead index fill => some (0x03#8, [index, fill])
  | .groupSet group pin => some (0x04#8, [group, pin])
  | .groupRead group fill => some (0x05#8, [group, fill])
  | .arm option fill => some (0x06#8, [option, fill])
  | .disarm => some (0x07#8, [])
  | .flip group fill => some (0x08#8, [group, fill])
  | .release group fill => some (0x09#8, [group, fill])
  | .eventTake => some (0x0A#8, [])
  | .attnMaskSet high low => some (0x0B#8, [high, low])
  | .attnMaskRead => some (0x0C#8, [])
  | .portSet timeout share => some (0x0D#8, [timeout, share])
  | .portRecover _ => some (0x0E#8, [])
  | .scrubStatus => some (0x0F#8, [])
  | .queuePeek position fill => some (0x10#8, [position, fill])
  | .hostRequest _ => none
  | .contribution => none
  | .stalledReadPresented => none
  | .grant _ => none
  | .responseTaken _ _ => none
  | .responseTimeout => none
  | .probeAnswered _ => none
  | .probeTimeout => none
  | .flipEdge => none
  | .reset => none
  | .transferEnd _ => none
  | .badFrame _ => none

/-- The request frame of a management command (R171, R172); empty for a command that is no frame. -/
def frameOf (c : Instr) : List Byte :=
  match frameParts c with
  | some (code, params) => sealFrame code params
  | none => []

/-- The command that a command code and its parameter bytes name (R181), at the moment `now`. -/
def commandOfParts (now : Nat) (code : Byte) (params : List Byte) : Option Instr :=
  match code.toNat, params with
  | 0x01, [] => some .status
  | 0x02, ps => if h : ps.length = 44 then some (.regionWrite ⟨ps.toArray, by simpa using h⟩) else none
  | 0x03, [a, b] => some (.regionRead a b)
  | 0x04, [a, b] => some (.groupSet a b)
  | 0x05, [a, b] => some (.groupRead a b)
  | 0x06, [a, b] => some (.arm a b)
  | 0x07, [] => some .disarm
  | 0x08, [a, b] => some (.flip a b)
  | 0x09, [a, b] => some (.release a b)
  | 0x0A, [] => some .eventTake
  | 0x0B, [a, b] => some (.attnMaskSet a b)
  | 0x0C, [] => some .attnMaskRead
  | 0x0D, [a, b] => some (.portSet a b)
  | 0x0E, [] => some (.portRecover now)
  | 0x0F, [] => some .scrubStatus
  | 0x10, [a, b] => some (.queuePeek a b)
  | _, _ => none

/-- What the frame receiver makes of a byte string (R173, R174): the command of a complete frame that passes the checks,
none where the frame is incomplete or refused. -/
def decodeFrame (now : Nat) (frame : List Byte) : Option Instr :=
  if frameComplete frame && !frameRefused frame then
    match frame with
    | code :: _ :: rest => commandOfParts now code rest.dropLast
    | _ => none
  else none

/-- The command that a complete request frame is (R173): the one it names, or BAD_FRAME where the frame receiver refuses it. -/
def commandOfFrame (now : Nat) (frame : List Byte) : Instr := (decodeFrame now frame).getD (.badFrame frame)

/-- The bits of a byte in the order in which the link carries them, most significant first (R170). -/
def bitsOf (b : Byte) : List Bool := [7, 6, 5, 4, 3, 2, 1, 0].map fun i => b.getLsbD i

/-- The byte that eight bits make, the most significant first (R170). -/
def byteOf (bits : List Bool) : Byte := bits.foldl (fun b x => (b <<< 1) ||| (if x then 1#8 else 0#8)) 0#8

end Sys2Proof
end

