-- ==== Sys2Proof/Config.lean ====
section
/-! DEFINITION. What the part fixes (00_scope.md, Features in brief; R132, R142) and the free values of the model: constants
without a body, for values that the spec never gives because its checks keep them from being used. -/

namespace Sys2Proof.Config

/-- Positions of the merge queue (R39). -/
def queueDepth : Nat := 16

/-- Places of the read hold list (R59). -/
def holdDepth : Nat := 4

/-- Places of the event queue (R143). -/
def eventDepth : Nat := 32

/-- Requests the memory port keeps outstanding (R128). -/
def outstandingDepth : Nat := 8

/-- The response timeout after reset, in microseconds (R134). -/
def resetTimeout : Nat := 32

/-- The scrub share after reset (R140). -/
def resetShare : Nat := 4

/-- Bytes of a granule (00_scope.md, Words, lanes and granules). -/
def granuleBytes : Nat := 4096

/-- Words of a granule (R2). -/
def granuleWords : Nat := 512

/-- The number of bytes of the address space: one more than FFFF_FFFFH. -/
def addressSpace : Nat := 4294967296

/-- DESIGN CHOICE, safe (log 15): the base of a bank B that is absent. R17 keeps a grouped region without bank B from
being armed, so the spec states no such address. A free value. -/
opaque absentBankBase : Addr

/-- DESIGN CHOICE, safe (log 15): the pattern word where the spec names none: IDENTITY with SAT_SUB (R18, R27), or PRESET
with no preset word (R5). A free value. -/
opaque absentPattern : Word64

end Sys2Proof.Config
end

