-- ==== Sys2Proof/Machine/State.lean ====
section
/-! DEFINITION. The state of the OB416, one structure per block, and the state after reset (R169). -/

namespace Sys2Proof.Machine

/-! ### Regions (Chapter 1) -/

/-- The two banks of a grouped region (R2). -/
inductive Bank where
  | a
  | b
  deriving DecidableEq, Repr

/-- The eight merge operations (R25). -/
inductive Operation where
  | wrapAdd
  | satAdd
  | satSub
  | max
  | min
  | bitSet
  | bitClear
  | replace
  deriving DecidableEq, Repr

/-- The lane widths (R21). -/
inductive LaneWidth where
  | w8
  | w16
  | w32
  | w64
  deriving DecidableEq, Repr

/-- The choice of pattern word (R1, field 10). -/
inductive ScrubPattern where
  | identity
  | preset
  deriving DecidableEq, Repr

/-- The reporting of saturations (R32). -/
inductive ClampReport where
  | off
  | once
  | each
  deriving DecidableEq, Repr

/-- One record of the region table, fields 1-14 (R1). -/
structure Region where
  enabled : Bool
  liveBase : Addr
  size : Nat
  group : Option GroupIx
  snapBase : Option Addr
  bankABase : Addr
  bankBBase : Option Addr
  operation : Operation
  width : LaneWidth
  pattern : ScrubPattern
  preset : Option Word64
  clampReport : ClampReport
  threshold : Option Word64
  lastClamp : Option Half
  deriving DecidableEq, Repr

/-! ### The merge engine (Chapter 3) -/

/-- The operand of one active lane, 0-M, and its operand-saturated flag (R39). -/
structure LaneOperand where
  value : Nat
  saturated : Bool
  deriving DecidableEq, Repr

/-- The state of a merge entry (R40). An entry in WRITING holds the word as read (R39), the computed write-back word, fixed when
the read data returned (R49), and whether its write-back has been issued (R53). -/
inductive EntryState where
  | waiting
  | reading
  | writing (readData result : Word64) (issued : Bool)
  deriving DecidableEq, Repr

/-- One merge entry (R39). `lanes` has one place for each lane of the word, lane 0 first: none for a lane outside the active
set. `stamp` is the model's own: the entry's place in acceptance order (log 7). -/
structure MergeEntry where
  stamp : Nat
  addr : Addr
  region : RegionIx
  group : Option GroupIx
  bank : Bank
  epoch : Option Half
  operation : Operation
  width : LaneWidth
  lanes : List (Option LaneOperand)
  count : Nat
  pinned : Bool
  state : EntryState
  deriving DecidableEq, Repr

/-- The state of a held read (R59). -/
inductive HeldState where
  | blocked
  | released
  deriving DecidableEq, Repr

/-- One held read (R59). `blockers` are the stamps of the entries of its blocker set. `stamp` is the model's own: the read's
place in acceptance order among the entries (log 7). -/
structure HeldRead where
  stamp : Nat
  tag : Tag
  first : Addr
  length : Nat
  blockers : List Nat
  state : HeldState
  issued : Nat
  deriving DecidableEq, Repr

/-- The merge engine (R39, R59). `queue` is oldest first, `hold` in the order taken. `nextStamp` is the model's own (log 7). -/
structure MergeEngine where
  queue : List MergeEntry
  hold : List HeldRead
  nextStamp : Nat
  deriving DecidableEq, Repr

/-! ### The flip controller (Chapter 4) -/

/-- The state of a flip group (R67). -/
inductive GroupState where
  | off
  | ready
  | draining
  | held
  | cleaning
  deriving DecidableEq, Repr

/-- One group record (R66). -/
structure Group where
  state : GroupState
  active : Bank
  epoch : Half
  flipPending : Bool
  drainCount : Nat
  pinDriven : Bool
  deriving DecidableEq, Repr

/-! ### The scrub engine (Chapter 5) -/

/-- The state of the scrub engine (R99). -/
inductive EngineState where
  | idle
  | offering
  | issued
  | paused
  deriving DecidableEq, Repr

/-- One scrub job (R95). -/
structure ScrubJob where
  region : RegionIx
  bank : Bank
  base : Addr
  size : Nat
  pattern : Word64
  cursor : Nat
  failed : Nat
  firstFailed : Option Addr
  deriving DecidableEq, Repr

/-- The scrub engine (R95, R99). The head of `jobs` is the active job. -/
structure ScrubEngine where
  engine : EngineState
  jobs : List ScrubJob
  deriving DecidableEq, Repr

/-! ### The host port (Chapter 6) -/

/-- READ or WRITE (R111). -/
inductive AccessKind where
  | read
  | write
  deriving DecidableEq, Repr

/-- The class of a transaction record (R114). -/
inductive TxClass where
  | plain
  | live
  | snap
  | aliasBank
  deriving DecidableEq, Repr

/-- One transaction record (R114). `awaited` is the model's own: the number of words whose completion the response waits for
(R118, R119; log 9). `data` has one place for each word of a READ. -/
structure TxRecord where
  tag : Tag
  kind : AccessKind
  cls : TxClass
  length : Nat
  completed : Nat
  awaited : Nat
  anyFailed : Bool
  withheld : Bool
  data : List (Option Word64)
  deriving DecidableEq, Repr

/-- A PLAIN write in the intake (R119). `position` is the index of the word that stands offered. -/
structure PlainWrite where
  tag : Tag
  start : Addr
  words : List WriteWord
  position : Nat
  deriving DecidableEq, Repr

/-- An open LIVE write in the intake (R120). `offset` is the offset of its first word in the live view, `position` the index
of the word to be presented. -/
structure LiveWrite where
  tag : Tag
  region : RegionIx
  offset : Addr
  words : List WriteWord
  position : Nat
  deriving DecidableEq, Repr

/-- An open LIVE read (R121). -/
structure LiveRead where
  tag : Tag
  region : RegionIx
  offset : Addr
  length : Nat
  deriving DecidableEq, Repr

/-- The intake and its buffer (R112): IDLE; TAKING with a PLAIN write; TAKING or STALLED with an open LIVE write; STALLED with
an open LIVE read. -/
inductive Intake where
  | idle
  | plainWrite (w : PlainWrite)
  | liveWrite (w : LiveWrite) (stalled : Bool)
  | liveRead (r : LiveRead)
  deriving DecidableEq, Repr

/-- The host port (Chapter 6). `channel` holds the requests waiting on the request channel, the next one first (log 4). -/
structure HostPort where
  channel : List HostRequest
  intake : Intake
  records : List TxRecord
  deriving DecidableEq, Repr

/-! ### The memory port (Chapter 7) -/

/-- The state of the memory port (R133). A RECOVERING port holds the deadline of its probe (R138). -/
inductive PortState where
  | up
  | failed
  | recovering (deadline : Nat)
  deriving DecidableEq, Repr

/-- The job that owns a scrub write: no (region, bank) pair stands twice in the job list (R95). -/
structure JobName where
  region : RegionIx
  bank : Bank
  deriving DecidableEq, Repr

/-- The source and owner of an outstanding request (R128). A scrub write whose job was discarded has no job. -/
inductive Owner where
  | mergeRead (stamp : Nat)
  | mergeWrite (stamp : Nat)
  | passRead (tag : Tag) (index : Nat)
  | passWrite (tag : Tag) (index : Nat)
  | scrubWrite (job : Option JobName)
  deriving DecidableEq, Repr

/-- One outstanding request (R128). -/
structure Outstanding where
  owner : Owner
  addr : Addr
  deadline : Nat
  deriving DecidableEq, Repr

/-- One word of the pass-through sequence (R130): a READ, or a WRITE with its mask and data. -/
structure PassWord where
  tag : Tag
  index : Nat
  addr : Addr
  write : Option WriteWord
  deriving DecidableEq, Repr

/-- The memory port (Chapter 7). `offered` is the pass-through sequence in production order (R130; log 10). -/
structure MemoryPort where
  state : PortState
  outstanding : List Outstanding
  offered : List PassWord
  starvation : Nat
  timeout : Nat
  share : Nat
  probeNumber : Byte
  deriving DecidableEq, Repr

/-! ### The event block (Chapter 8) -/

/-- The twelve event kinds, in the order of their codes (R144, R179). -/
inductive EventKind where
  | refused
  | clamp
  | watch
  | flipDone
  | flipMissed
  | bankReady
  | scrubFault
  | memFault
  | portFailed
  | portRecovered
  | armed
  | disarmed
  deriving DecidableEq, Repr

/-- The values of the cause field, in the order of their codes (R144, R179). -/
inductive Cause where
  | shield
  | malformed
  | snapWrite
  | dupTag
  | pin
  | command
  | readError
  | writeError
  | timeout
  | portDown
  | probe
  | scrubAll
  | keep
  deriving DecidableEq, Repr

/-- The values of the state field: a group state, or the state of a word (R144). -/
inductive ReportedState where
  | group (state : GroupState)
  | unchanged
  | indeterminate
  deriving DecidableEq, Repr

/-- What a producer raises: an event record before it is stored (R144). -/
structure Report where
  kind : EventKind
  group : Option GroupIx := none
  epoch : Option Half := none
  region : Option RegionIx := none
  address : Option Addr := none
  lane : Option Nat := none
  value : Option Word64 := none
  count : Option Nat := none
  cause : Option Cause := none
  state : Option ReportedState := none
  bank : Option Bank := none
  deriving DecidableEq, Repr

/-- A stored event record: the report with its serial and its loss-before field (R144). -/
structure EventRecord where
  serial : Half
  lossBefore : Bool
  report : Report
  deriving DecidableEq, Repr

/-- The event block (Chapter 8). The head of `queue` is the oldest record. Bit k of `mask` is set when the kind with code k is
masked (R181). -/
structure EventBlock where
  queue : List EventRecord
  serial : Half
  loss : Bool
  mask : Half
  attn : Bool
  deriving DecidableEq, Repr

/-! ### The mode controller (Chapter 9) and the management link (Chapter 10) -/

/-- The operating modes (R156). -/
inductive Mode where
  | bypass
  | starting
  | run
  | stopping
  deriving DecidableEq, Repr

/-- The options of ARM (R158). -/
inductive ArmOption where
  | scrubAll
  | keep
  deriving DecidableEq, Repr

/-- What the link does with the bytes of the present transfer (R170, R175): it takes them; it discards the byte being clocked,
which began while RESET was asserted, and takes those behind it; or it takes none until MSEL rises, since RESET abandoned the
transfer. -/
inductive Reception where
  | taking
  | skipping
  | abandoned
  deriving DecidableEq, Repr

/-- The management link (R170). `selected` is the level of MSEL, low. `receiver` is the frame receiver: the whole bytes of the
request frame so far. `bits` are the bits of the byte being clocked, the first one first. `response` is the response buffer: the
bytes of the response frame not yet shifted out. -/
structure Link where
  selected : Bool
  reception : Reception
  receiver : List Byte
  bits : List Bool
  response : List Byte
  deriving DecidableEq, Repr

/-- What the outside does on the lines that carry levels and bits. On the management link MSEL falls, one bit is clocked in on MDIN
at a moment, or MSEL rises (R170). The RESET input is asserted, or released (R169). -/
inductive PinSignal where
  | select
  | bit (value : Bool) (now : Nat)
  | deselect
  | assertReset
  | releaseReset
  deriving DecidableEq, Repr

/-! ### What the part sends (log 8) -/

/-- The statuses of the host link (R111). -/
inductive HostStatus where
  | ok
  | refused
  | busy
  | fault
  deriving DecidableEq, Repr

/-- One response on the host link (R111). -/
structure HostResponse where
  tag : Tag
  status : HostStatus
  data : List Word64
  deriving DecidableEq, Repr

/-- One request on the memory link (R127). -/
inductive MemRequest where
  | read (addr : Addr)
  | write (addr : Addr) (mask : Byte) (data : Word64)
  | probe (number : Byte)
  deriving DecidableEq, Repr

/-- What the part has sent since reset on the host link and on the memory link, in order (log 8). -/
structure Sent where
  host : List HostResponse
  memory : List MemRequest
  deriving DecidableEq, Repr

/-! ### The machine -/

/-- The state of the part; the commands that wait, first in, first out; and the signals on its lines that the part has not yet
sampled, the next one first (`pins`, log 5). `resetAsserted` says that the RESET input is low (R169). -/
structure State where
  resetAsserted : Bool
  mode : Mode
  armOption : Option ArmOption
  remembered : Vector Bank 4
  regions : Vector Region 16
  host : HostPort
  merge : MergeEngine
  groups : Vector Group 4
  scrub : ScrubEngine
  port : MemoryPort
  events : EventBlock
  link : Link
  sent : Sent
  pins : List PinSignal
  pending : List Instr
  deriving DecidableEq, Repr

/-- Nothing stops the part: every refusal that the spec describes is an answer or an event record, and the part goes on. So no
fault exists. Safe. -/
inductive Fault where
  deriving DecidableEq, Repr

/-- The reasons to refuse a command. -/
inductive Refusal where
  /-- A command that has no meaning yet, by its mnemonic. Raised by no arm of exec. Safe. -/
  | notModelled (mnemonic : String)
  deriving DecidableEq, Repr

/-- A region record at its reset values (R1). -/
def Region.reset : Region where
  enabled := false
  liveBase := 0
  size := 0
  group := none
  snapBase := none
  bankABase := 0
  bankBBase := none
  operation := .wrapAdd
  width := .w8
  pattern := .identity
  preset := none
  clampReport := .off
  threshold := none
  lastClamp := none

/-- A group record at its reset values (R66, R70). -/
def Group.reset : Group where
  state := .off
  active := .a
  epoch := 0
  flipPending := false
  drainCount := 0
  pinDriven := false

/-- The part right after reset (R169 and the rules it gathers). -/
def State.reset : State where
  resetAsserted := false
  mode := .bypass
  armOption := none
  remembered := Vector.replicate 4 .a
  regions := Vector.replicate 16 Region.reset
  host := { channel := [], intake := .idle, records := [] }
  merge := { queue := [], hold := [], nextStamp := 0 }
  groups := Vector.replicate 4 Group.reset
  scrub := { engine := .idle, jobs := [] }
  port := {
    state := .up, outstanding := [], offered := [], starvation := 0
    timeout := Config.resetTimeout, share := Config.resetShare, probeNumber := 0 }
  events := { queue := [], serial := 0, loss := false, mask := 0, attn := false }
  link := { selected := false, reception := .taking, receiver := [], bits := [], response := [] }
  sent := { host := [], memory := [] }
  pins := []
  pending := []

end Sys2Proof.Machine
end

