-- ==== Sys2Proof/Machine/Operands.lean ====
section
/-! DEFINITION. Lanes and byte masks (section 2.1) and the composition of queued operands (section 2.4). -/

namespace Sys2Proof.Machine

/-- The bytes of a lane (R21). -/
def LaneWidth.bytes : LaneWidth → Nat
  | .w8 => 1
  | .w16 => 2
  | .w32 => 4
  | .w64 => 8

/-- The bits of a lane (R21). -/
def LaneWidth.bits (w : LaneWidth) : Nat := 8 * w.bytes

/-- The lanes of a word (R21). -/
def LaneWidth.lanes : LaneWidth → Nat
  | .w8 => 8
  | .w16 => 4
  | .w32 => 2
  | .w64 => 1

/-- M, the largest lane value (R21). -/
def LaneWidth.maxValue (w : LaneWidth) : Nat := 2 ^ w.bits - 1

/-- The value of lane k of a word: its bytes, the lowest-addressed one least significant (R21). -/
def laneValue (w : LaneWidth) (word : Word64) (k : Nat) : Nat := word.toNat / 2 ^ (w.bits * k) % 2 ^ w.bits

/-- The word whose lanes, lane 0 first, hold the given values (R21, R24). -/
def packLanes (w : LaneWidth) : List Nat → Nat
  | [] => 0
  | v :: vs => v + 2 ^ w.bits * packLanes w vs

/-- The mask bits of lane k (R22). -/
def laneMask (w : LaneWidth) (mask : Byte) (k : Nat) : Nat := mask.toNat / 2 ^ (w.bytes * k) % 2 ^ w.bytes

/-- Lane k is full: every byte of it has its mask bit at 1 (R22). -/
def laneFull (w : LaneWidth) (mask : Byte) (k : Nat) : Bool := laneMask w mask k == 2 ^ w.bytes - 1

/-- Lane k is partial: some of its bytes have mask bit 1 and others 0 (R22). -/
def lanePartial (w : LaneWidth) (mask : Byte) (k : Nat) : Bool := !laneFull w mask k && laneMask w mask k != 0

/-- Some lane of a written word is partial (R22). -/
def maskPartial (w : LaneWidth) (mask : Byte) : Bool := (List.range w.lanes).any (lanePartial w mask)

/-- The active lanes of a contribution and their operands, every flag clear (R22, R23). -/
def contributionLanes (w : LaneWidth) (word : WriteWord) : List (Option LaneOperand) :=
  (List.range w.lanes).map fun k =>
    if laneFull w word.mask k then some { value := laneValue w word.data k, saturated := false } else none

/-- A sum of two operands, cut at M; the flag is set when it is cut, and stays set (R29, R30). -/
def addSaturating (w : LaneWidth) (a : LaneOperand) (d : Nat) : LaneOperand :=
  if a.value + d ≤ w.maxValue then { a with value := a.value + d } else { value := w.maxValue, saturated := true }

/-- The composition of operand d into a lane active in the entry (R29). -/
def composeOperand (op : Operation) (w : LaneWidth) (a : LaneOperand) (d : Nat) : LaneOperand :=
  match op with
  | .wrapAdd => { a with value := (a.value + d) % 2 ^ w.bits }
  | .satAdd => addSaturating w a d
  | .satSub => addSaturating w a d
  | .max => { a with value := Nat.max a.value d }
  | .min => { a with value := Nat.min a.value d }
  | .bitSet => { a with value := a.value ||| d }
  | .bitClear => { a with value := a.value ||| d }
  | .replace => { a with value := d }

/-- One lane of an entry after a contribution has joined it (R29). -/
def composeLane (op : Operation) (w : LaneWidth) (mine joining : Option LaneOperand) : Option LaneOperand :=
  match mine, joining with
  | some a, some d => some (composeOperand op w a d.value)
  | some a, none => some a
  | none, some d => some { value := d.value, saturated := false }
  | none, none => none

/-- The lanes of an entry after a contribution has joined it (R29). -/
def joinLanes (op : Operation) (w : LaneWidth) (mine joining : List (Option LaneOperand)) : List (Option LaneOperand) :=
  List.zipWith (composeLane op w) mine joining

end Sys2Proof.Machine
end

