-- ==== Sys2Proof/Machine/Flags.lean ====
section
/-! DEFINITION. The lane unit: results, clamp verdicts and watch crossings of one write-back (sections 2.2, 2.5, 2.6), and the
pattern words (section 2.3). -/

namespace Sys2Proof.Machine

/-- The result of an active lane from the stored value m and the operand a, the sums exact (R25). -/
def laneResult (op : Operation) (w : LaneWidth) (m a : Nat) : Nat :=
  match op with
  | .wrapAdd => (m + a) % 2 ^ w.bits
  | .satAdd => if m + a ≤ w.maxValue then m + a else w.maxValue
  | .satSub => if a ≤ m then m - a else 0
  | .max => Nat.max m a
  | .min => Nat.min m a
  | .bitSet => m ||| a
  | .bitClear => m &&& (w.maxValue ^^^ a)
  | .replace => a

/-- The clamp verdict of an active lane (R26). -/
def laneClamps (op : Operation) (w : LaneWidth) (m : Nat) (a : LaneOperand) : Bool :=
  match op with
  | .satAdd => decide (w.maxValue < m + a.value) || a.saturated
  | .satSub => decide (m < a.value) || a.saturated
  | .wrapAdd => false
  | .max => false
  | .min => false
  | .bitSet => false
  | .bitClear => false
  | .replace => false

/-- The direction of the watch judgement is downward (R36). -/
def Operation.watchesDown : Operation → Bool
  | .min => true
  | .satSub => true
  | .wrapAdd => false
  | .satAdd => false
  | .max => false
  | .bitSet => false
  | .bitClear => false
  | .replace => false

/-- An active lane crosses the watch threshold from m to r; nothing is judged when the threshold is absent (R36). -/
def laneCrosses (op : Operation) (threshold : Option Word64) (m r : Nat) : Bool :=
  match threshold with
  | none => false
  | some t => if op.watchesDown then decide (t.toNat < m) && decide (r ≤ t.toNat) else decide (m < t.toNat) && decide (t.toNat ≤ r)

/-- What the lane unit makes of one lane: the value written, whether it clamped and whether it crossed (R24). -/
structure LaneOutcome where
  lane : Nat
  result : Nat
  clamps : Bool
  crosses : Bool
  deriving DecidableEq, Repr

/-- Lane k of a write-back. A lane outside the active set keeps its stored value and neither clamps nor crosses (R24). -/
def laneOutcome (e : MergeEntry) (threshold : Option Word64) (data : Word64) (k : Nat) : LaneOutcome :=
  let m := laneValue e.width data k
  match e.lanes.getD k none with
  | none => { lane := k, result := m, clamps := false, crosses := false }
  | some a =>
    let r := laneResult e.operation e.width m a.value
    { lane := k, result := r, clamps := laneClamps e.operation e.width m a, crosses := laneCrosses e.operation threshold m r }

/-- The lane unit applied to an entry and the word read, lane 0 first (R24). -/
def laneOutcomes (e : MergeEntry) (threshold : Option Word64) (data : Word64) : List LaneOutcome :=
  (List.range e.width.lanes).map (laneOutcome e threshold data)

/-- The word to be written back (R24). -/
def writeBackWord (e : MergeEntry) (data : Word64) : Word64 :=
  BitVec.ofNat 64 (packLanes e.width ((laneOutcomes e none data).map LaneOutcome.result))

/-- The epoch that clamp report ONCE compares: the entry's, or 0 for an ungrouped region (R33). -/
def MergeEntry.clampEpoch (e : MergeEntry) : Half := e.epoch.getD 0

/-- A clamping lane raises a CLAMP event under this report and last clamp epoch (R32, R33). -/
def clampReported (report : ClampReport) (lastClamp : Option Half) (epoch : Half) : Bool :=
  match report with
  | .off => false
  | .each => true
  | .once => lastClamp != some epoch

/-- The CLAMP or WATCH record of one lane of an entry (R35, R37). -/
def laneReport (kind : EventKind) (e : MergeEntry) (o : LaneOutcome) : Report :=
  { kind := kind, region := some e.region, address := some e.addr, lane := some o.lane
    value := some (BitVec.ofNat 64 o.result), epoch := e.epoch }

/-- The records one write-back raises, in ascending lane order with CLAMP before WATCH within a lane (R37), and the last clamp
epoch after it (R32, R33). -/
def judgeLanes (report : ClampReport) (e : MergeEntry) : List LaneOutcome → Option Half → List Report × Option Half
  | [], lastClamp => ([], lastClamp)
  | o :: os, lastClamp =>
    let clamped := o.clamps && clampReported report lastClamp e.clampEpoch
    let rest := judgeLanes report e os (if clamped && report == .once then some e.clampEpoch else lastClamp)
    ((if clamped then [laneReport .clamp e o] else []) ++ (if o.crosses then [laneReport .watch e o] else []) ++ rest.1, rest.2)

/-- The pattern word of a region (R27, R28, R96). -/
def Region.patternWord (r : Region) : Word64 :=
  match r.pattern with
  | .preset => r.preset.getD Config.absentPattern
  | .identity =>
    match r.operation with
    | .wrapAdd => 0
    | .satAdd => 0
    | .max => 0
    | .bitSet => 0
    | .replace => 0
    | .min => BitVec.allOnes 64
    | .bitClear => BitVec.allOnes 64
    | .satSub => Config.absentPattern

end Sys2Proof.Machine
end

