-- ==== Sys2Proof/Machine/RegionMap.lean ====
section
/-! DEFINITION. The ranges of a region, the region decoder (sections 1.1, 1.3, 1.4) and the validation of the table at ARM
(section 1.5). -/

namespace Sys2Proof.Machine

/-! ### Ranges -/

/-- The bytes that every range of a region spans (R2). -/
def Region.spanBytes (r : Region) : Nat := r.size * Config.granuleBytes

/-- The words of one bank of a region (R2, R95). -/
def Region.spanWords (r : Region) : Nat := r.size * Config.granuleWords

/-- An address lies in the range of a region that starts at a base (R2). -/
def Region.inRange (r : Region) (base a : Addr) : Bool :=
  decide (base.toNat ≤ a.toNat) && decide (a.toNat < base.toNat + r.spanBytes)

/-- An address lies in bank A or bank B of a region (R2). -/
def Region.inBank (r : Region) (a : Addr) : Bool := r.inRange r.bankABase a || r.bankBBase.any (fun base => r.inRange base a)

/-- The base of a bank (R2). An absent bank B has a free value (log 15). -/
def Region.bankBase (r : Region) (bank : Bank) : Addr :=
  match bank with
  | .a => r.bankABase
  | .b => r.bankBBase.getD Config.absentBankBase

/-- The address of word i of a transfer that starts at `first`. -/
def wordAddr (first : Addr) (i : Nat) : Addr := first + BitVec.ofNat 32 (8 * i)

/-- A transfer of `length` words from `first` covers an address. -/
def covers (first : Addr) (length : Nat) (a : Addr) : Bool :=
  decide (first.toNat ≤ a.toNat) && decide (a.toNat < first.toNat + 8 * length)

/-! ### The decoder -/

/-- The class of one word and the region it names (R9). -/
inductive WordClass where
  | plain
  | live (r : RegionIx)
  | snap (r : RegionIx)
  | aliasBank (r : RegionIx)
  deriving DecidableEq, Repr

/-- The class that one record gives to a word; none when the word lies in no range of an enabled record (R9). -/
def Region.classify (r : Region) (ix : RegionIx) (a : Addr) : Option WordClass :=
  if !r.enabled then none
  else if r.inRange r.liveBase a then some (.live ix)
  else if r.snapBase.any (fun base => r.inRange base a) then some (.snap ix)
  else if r.inBank a then some (.aliasBank ix)
  else none

/-- The class of a word by the ranges of the enabled records (R9). -/
def classifyWord (regions : Vector Region 16) (a : Addr) : WordClass :=
  (allRegions.findSome? fun ix => regions[ix].classify ix a).getD .plain

/-- The result of decoding a request (R7, R13). The offset is that of the first word in its view. -/
inductive Decoded where
  | plain
  | live (r : RegionIx) (offset : Addr) (isOpen : Bool)
  | snap (r : RegionIx) (offset : Addr) (isOpen : Bool)
  | aliasBank (r : RegionIx)
  | malformed
  deriving DecidableEq, Repr

/-- The number of words of a request (R111). -/
def transferLength (k : RequestKind) : Nat :=
  match k with
  | .read n => n.val
  | .write words => words.length

/-- READ or WRITE (R111). -/
def accessOf (k : RequestKind) : AccessKind :=
  match k with
  | .read _ => .read
  | .write _ => .write

/-- The start address of a request (R111). -/
def startOf (r : HostRequest) : Addr := r.wordAddress ++ 0#3

/-- The length of a request is not one that is acted on, or its transfer passes FFFF_FFFFH (R12). -/
def malformedShape (r : HostRequest) : Bool :=
  let n := transferLength r.kind
  n == 0 || decide (16 < n) || decide (Config.addressSpace < (startOf r).toNat + 8 * n)

/-- A word of a WRITE with a non-zero mask covers a lane in part (R12, R22). -/
def partialWrite (w : LaneWidth) (k : RequestKind) : Bool :=
  match k with
  | .read _ => false
  | .write words => words.any fun x => x.mask != 0 && maskPartial w x.mask

/-- The region decoder (R7 to R12). -/
def decodeRequest (mode : Mode) (regions : Vector Region 16) (r : HostRequest) : Decoded :=
  if malformedShape r then .malformed
  else if mode = .bypass then .plain
  else
    let start := startOf r
    let first := classifyWord regions start
    if !(List.range (transferLength r.kind)).all (fun i => classifyWord regions (wordAddr start i) = first) then .malformed
    else
      match first with
      | .plain => .plain
      | .aliasBank ix => .aliasBank ix
      | .snap ix => .snap ix (start - regions[ix].snapBase.getD start) (mode = .run)
      | .live ix =>
        if mode = .run && partialWrite regions[ix].width r.kind then .malformed
        else .live ix (start - regions[ix].liveBase) (mode = .run)

/-- A word lies in a bank of an enabled region (R15). -/
def inAnyBank (regions : Vector Region 16) (a : Addr) : Bool :=
  allRegions.any fun ix => regions[ix].enabled && regions[ix].inBank a

/-! ### Validation -/

/-- The reasons of a failed validation, in the order of the checks (R16). -/
inductive ArmReason where
  | groupFields
  | wrap
  | threshold
  | pattern
  | overlap
  deriving DecidableEq, Repr

/-- The bases that a record names (R19): the live view and bank A always, the others where present. -/
def Region.bases (r : Region) : List Addr := [r.liveBase, r.bankABase] ++ r.snapBase.toList ++ r.bankBBase.toList

/-- GROUP_FIELDS fails (R17). -/
def Region.groupFieldsFail (r : Region) : Bool :=
  if r.group.isSome then r.snapBase.isNone || r.bankBBase.isNone else r.snapBase.isSome || r.bankBBase.isSome

/-- WRAP fails (R17). -/
def Region.wrapFails (r : Region) : Bool := r.bases.any fun base => decide (Config.addressSpace < base.toNat + r.spanBytes)

/-- THRESHOLD fails (R18). -/
def Region.thresholdFails (r : Region) : Bool := r.threshold.any fun t => decide (r.width.maxValue < t.toNat)

/-- PATTERN fails (R18). -/
def Region.patternFails (r : Region) : Bool := r.operation = .satSub && r.pattern = .identity

/-- A range as its first byte and the byte after its last; a range that would pass FFFF_FFFFH counts as ending there (R19). -/
def Region.ranges (r : Region) : List (Nat × Nat) :=
  r.bases.map fun base => (base.toNat, Nat.min (base.toNat + r.spanBytes) Config.addressSpace)

/-- Two ranges have a byte in common (R19). -/
def rangesMeet (x y : Nat × Nat) : Bool := decide (Nat.max x.1 y.1 < Nat.min x.2 y.2)

/-- Two ranges of one list have a byte in common (R19). -/
def anyMeet : List (Nat × Nat) → Bool
  | [] => false
  | x :: xs => xs.any (rangesMeet x) || anyMeet xs

/-- OVERLAP fails for a region (R19). -/
def overlapFails (regions : Vector Region 16) (ix : RegionIx) : Bool :=
  anyMeet regions[ix].ranges ||
    allRegions.any fun other =>
      other != ix && regions[other].enabled && regions[ix].ranges.any fun x => regions[other].ranges.any (rangesMeet x)

/-- The first check that fails for a region (R16). -/
def checkRegion (regions : Vector Region 16) (ix : RegionIx) : Option ArmReason :=
  if !regions[ix].enabled then none
  else if regions[ix].groupFieldsFail then some .groupFields
  else if regions[ix].wrapFails then some .wrap
  else if regions[ix].thresholdFails then some .threshold
  else if regions[ix].patternFails then some .pattern
  else if overlapFails regions ix then some .overlap
  else none

/-- Validation (R16): none when it passes, else the first failing region and check. -/
def validate (regions : Vector Region 16) : Option (RegionIx × ArmReason) :=
  allRegions.findSome? fun ix => (checkRegion regions ix).map fun reason => (ix, reason)

end Sys2Proof.Machine
end

