-- ==== Sys2Proof/Machine/Ops.lean ====
section
/-! DEFINITION. The shared operations of the blocks: raising events, group records, flips, transaction records, removals, offers,
scrub jobs, the cascade of a failed port, and the ends of STARTING and STOPPING. -/

namespace Sys2Proof.Machine

/-! ### Events and ATTN (Chapter 8) -/

/-- The code of an event kind, which is also its bit of the attention mask (R179, R181). -/
def EventKind.code : EventKind → Nat
  | .refused => 0
  | .clamp => 1
  | .watch => 2
  | .flipDone => 3
  | .flipMissed => 4
  | .bankReady => 5
  | .scrubFault => 6
  | .memFault => 7
  | .portFailed => 8
  | .portRecovered => 9
  | .armed => 10
  | .disarmed => 11

/-- The condition of the ATTN line: the queue holds a record of an unmasked kind (R153). -/
def EventBlock.attention (b : EventBlock) : Bool := b.queue.any fun r => !b.mask.getLsbD r.report.kind.code

/-- ATTN recomputed (R153). -/
def EventBlock.sync (b : EventBlock) : EventBlock := { b with attn := b.attention }

/-- A record is raised: stored at the young end with the next serial and the loss mark, or dropped with the loss mark set when
32 records are held (R145, R146, R147). -/
def EventBlock.raise (b : EventBlock) (r : Report) : EventBlock :=
  if b.queue.length < Config.eventDepth then
    EventBlock.sync
      { b with queue := b.queue ++ [{ serial := b.serial, lossBefore := b.loss, report := r }], serial := b.serial + 1, loss := false }
  else { b with loss := true }

/-- A producer raises one record. -/
def State.raise (s : State) (r : Report) : State := { s with events := s.events.raise r }

/-- A producer raises several records in one step, in their order (R148). -/
def State.raiseAll (s : State) (rs : List Report) : State := { s with events := rs.foldl EventBlock.raise s.events }

/-- A REFUSED record (R116, R119). -/
def refusedReport (reason : Cause) (a : Addr) (tag : Tag) : Report :=
  { kind := .refused, cause := some reason, address := some a, value := some (BitVec.ofNat 64 tag.val) }

/-- A FLIP_DONE record (R80). -/
def flipDoneReport (g : GroupIx) (finished : Half) (held : Bank) : Report :=
  { kind := .flipDone, group := some g, epoch := some finished, bank := some held }

/-- A FLIP_MISSED record (R74). -/
def flipMissedReport (g : GroupIx) (found : GroupState) (source : Cause) : Report :=
  { kind := .flipMissed, group := some g, state := some (.group found), cause := some source }

/-- A BANK_READY record (R88). -/
def bankReadyReport (g : GroupIx) (ready : Bank) : Report :=
  { kind := .bankReady, group := some g, bank := some ready }

/-- A SCRUB_FAULT record (R105). -/
def scrubFaultReport (j : ScrubJob) : Report :=
  { kind := .scrubFault, region := some j.region, bank := some j.bank, count := some j.failed, address := j.firstFailed }

/-- A MEM_FAULT record (R54). -/
def memFaultReport (e : MergeEntry) (cause : Cause) (word : ReportedState) : Report :=
  { kind := .memFault, region := some e.region, address := some e.addr, epoch := e.epoch, count := some e.count
    cause := some cause, state := some word }

/-- A PORT_FAILED record (R141). -/
def portFailedReport (cause : Cause) (a : Option Addr) (count : Nat) : Report :=
  { kind := .portFailed, cause := some cause, address := a, count := some count }

/-- The ARM option as a cause (R144). -/
def ArmOption.cause : ArmOption → Cause
  | .scrubAll => .scrubAll
  | .keep => .keep

/-! ### The RESET input -/

/-- What an event makes of the part, where RESET is not asserted. While it is asserted the part takes no request, sends none,
discards responses and ignores edges: nothing changes (R126, R142, R169). -/
def State.unlessReset (s after : State) : State := if s.resetAsserted then s else after

/-! ### The outputs -/

/-- The response channel accepts a response (R111). -/
def State.answer (s : State) (r : HostResponse) : State := { s with sent := { s.sent with host := s.sent.host ++ [r] } }

/-- A request goes down the memory link (R127). -/
def State.sendDown (s : State) (m : MemRequest) : State := { s with sent := { s.sent with memory := s.sent.memory ++ [m] } }

/-! ### Group records and flips (Chapter 4) -/

/-- The bank that is not this one (R66). -/
def Bank.other : Bank → Bank
  | .a => .b
  | .b => .a

/-- A group record is replaced. -/
def State.setGroup (s : State) (g : GroupIx) (r : Group) : State := { s with groups := s.groups.set g r }

/-- The region belongs to the group: it is enabled and its group field names it (R66). -/
def Region.belongsTo (r : Region) (g : GroupIx) : Bool := r.enabled && r.group == some g

/-- The intake is part-way through a live write of the group (R75, R123). -/
def State.partWay (s : State) (g : GroupIx) : Bool :=
  match s.host.intake with
  | .liveWrite w _ => s.regions[w.region].group == some g
  | .idle => false
  | .plainWrite _ => false
  | .liveRead _ => false

/-- The entry belongs to the group and targets the bank. -/
def MergeEntry.targets (e : MergeEntry) (g : GroupIx) (bank : Bank) : Bool := e.group == some g && e.bank == bank

/-- The number of queue entries of the group that target the bank (R76). -/
def entriesTargeting (queue : List MergeEntry) (g : GroupIx) (bank : Bank) : Nat :=
  (queue.filter fun e => e.targets g bank).length

/-- The group enters HELD and raises FLIP_DONE with the finished epoch and the bank left (R79, R80). -/
def State.enterHeld (s : State) (g : GroupIx) : State :=
  let r := s.groups[g]
  (s.setGroup g { r with state := .held, drainCount := 0 }).raise (flipDoneReport g (r.epoch - 1) r.active.other)

/-- A flip is taken (R76). -/
def State.takeFlip (s : State) (g : GroupIx) : State :=
  let r := s.groups[g]
  let n := entriesTargeting s.merge.queue g r.active
  let flipped := s.setGroup g
    { r with state := .draining, active := r.active.other, epoch := r.epoch + 1, flipPending := false, drainCount := n }
  if n = 0 then flipped.enterHeld g else flipped

/-- The cut-point rule for a pending flip: it is taken when the group is READY and the intake is not part-way (R73, R75, R77). -/
def State.cutPoint (s : State) (g : GroupIx) : State :=
  let r := s.groups[g]
  if r.state = .ready && r.flipPending && !s.partWay g then s.takeFlip g else s

/-- What a flip request comes to (R71). -/
inductive FlipOutcome where
  | taken
  | pending
  | refused (found : GroupState)
  deriving DecidableEq, Repr

/-- A flip request to a group in RUN, from either source (R71, R72, R74). A group found OFF is refused without an event: the
law of R67 keeps it from arising (log 19). -/
def State.requestFlip (s : State) (g : GroupIx) (source : Cause) : State × FlipOutcome :=
  let r := s.groups[g]
  match r.state with
  | .ready =>
    if r.flipPending then (s, .pending)
    else if s.partWay g then (s.setGroup g { r with flipPending := true }, .pending)
    else (s.takeFlip g, .taken)
  | .cleaning => (s.setGroup g { r with flipPending := true }, .pending)
  | .draining => (s.raise (flipMissedReport g .draining source), .refused .draining)
  | .held => (s.raise (flipMissedReport g .held source), .refused .held)
  | .off => (s, .refused .off)

/-- The merge engine reports the removal of an entry to the flip controller (R55, R79). -/
def State.reportRemoval (s : State) (group : Option GroupIx) (bank : Bank) : State :=
  match group with
  | none => s
  | some g =>
    let r := s.groups[g]
    if r.state = .draining && bank != r.active then
      if r.drainCount - 1 = 0 then s.enterHeld g else s.setGroup g { r with drainCount := r.drainCount - 1 }
    else s

/-- BANK_READY: the group enters READY, and a pending flip is taken at the cut point (R87, R88). -/
def State.enterReady (s : State) (g : GroupIx) : State :=
  let r := s.groups[g]
  ((s.setGroup g { r with state := .ready }).raise (bankReadyReport g r.active.other)).cutPoint g

/-! ### Modes (Chapter 9) -/

/-- STARTING ends: RUN, every group READY with the bank the option gives, and ARMED (R68, R162). -/
def State.endStarting (s : State) : State :=
  let bankOf (g : GroupIx) : Bank := if s.armOption = some .keep then s.remembered[g] else .a
  let record (g : GroupIx) : Group :=
    { s.groups[g] with state := .ready, active := bankOf g, flipPending := false, drainCount := 0 }
  State.raise { s with mode := .run, groups := #v[record 0, record 1, record 2, record 3] }
    { kind := .armed, cause := s.armOption.map ArmOption.cause }

/-- A group record when the part reaches BYPASS (R69). -/
def Group.atBypass (r : Group) : Group := { r with state := .off, flipPending := false, drainCount := 0 }

/-- STOPPING ends: BYPASS, every group OFF, the active banks remembered, the option absent, and DISARMED (R69, R166). -/
def State.endStopping (s : State) : State :=
  State.raise { s with mode := .bypass, groups := s.groups.map Group.atBypass, remembered := s.groups.map Group.active, armOption := none }
    { kind := .disarmed }

/-- The intake holds an open LIVE write or an open LIVE read (R123). -/
def Intake.holdsLive (i : Intake) : Bool :=
  match i with
  | .liveWrite _ _ => true
  | .liveRead _ => true
  | .idle => false
  | .plainWrite _ => false

/-- The ending condition of STOPPING holds (R166). -/
def State.rundownDone (s : State) : Bool := s.merge.queue.isEmpty && s.merge.hold.isEmpty && !s.host.intake.holdsLive

/-- The ending condition of STOPPING is judged (R166; log 12). -/
def State.judgeStopping (s : State) : State := if s.mode = .stopping && s.rundownDone then s.endStopping else s

/-! ### Transaction records and host responses (Chapter 6) -/

/-- The transaction record of a tag (R114). -/
def State.record? (s : State) (tag : Tag) : Option TxRecord := s.host.records.find? fun r => r.tag == tag

/-- The records with one of them replaced. -/
def putRecord (records : List TxRecord) (r : TxRecord) : List TxRecord := records.map fun x => if x.tag == r.tag then r else x

/-- The records without one tag. -/
def dropRecord (records : List TxRecord) (tag : Tag) : List TxRecord := records.filter fun x => !(x.tag == tag)

/-- The response of a record whose words have completed (R118, R119, R122). -/
def TxRecord.response (r : TxRecord) : HostResponse where
  tag := r.tag
  status := if r.withheld then .refused else if r.anyFailed then .fault else .ok
  data := if r.withheld then [] else r.data.map fun x => x.getD 0

/-- A new record of a request's tag (R114). -/
def newRecord (tag : Tag) (kind : AccessKind) (cls : TxClass) (length awaited : Nat) : TxRecord where
  tag := tag
  kind := kind
  cls := cls
  length := length
  completed := 0
  awaited := awaited
  anyFailed := false
  withheld := false
  data := if kind = .read then List.replicate length none else []

/-- A record is added. -/
def State.openRecord (s : State) (r : TxRecord) : State := { s with host := { s.host with records := s.host.records ++ [r] } }

/-- A tag leaves the outstanding-tag set (R114). -/
def State.closeRecord (s : State) (tag : Tag) : State := { s with host := { s.host with records := dropRecord s.host.records tag } }

/-- A changed record is kept, or its response is sent and its tag leaves the set when every awaited word has completed (R118,
R119). -/
def State.storeRecord (s : State) (r : TxRecord) : State :=
  if r.completed = r.awaited then (s.closeRecord r.tag).answer r.response
  else { s with host := { s.host with records := putRecord s.host.records r } }

/-- A record after one of its words has completed: with its data, with nothing to store (an acknowledged write), or failed
(R118, R122). -/
def TxRecord.complete (r : TxRecord) (index : Nat) (failed : Bool) (data : Word64) : TxRecord :=
  { r with
    completed := r.completed + 1
    anyFailed := r.anyFailed || failed
    data := r.data.set index (some (if failed then 0 else data)) }

/-- A word of a request completes; the outcome of a word whose record has gone is delivered to nobody (R128). -/
def State.completeWord (s : State) (tag : Tag) (index : Nat) (failed : Bool) (data : Word64) : State :=
  match s.record? tag with
  | none => s
  | some r => s.storeRecord (r.complete index failed data)

/-- The intake's buffer is replaced. -/
def State.setIntake (s : State) (i : Intake) : State := { s with host := { s.host with intake := i } }

/-! ### The pass-through sequence and PLAIN writes (R15, R119, R130) -/

/-- Words are produced: they join the young end of the pass-through sequence (R130). -/
def State.produce (s : State) (ws : List PassWord) : State := { s with port := { s.port with offered := s.port.offered ++ ws } }

/-- The READ words of a transfer, in ascending address order (R118). -/
def readWords (tag : Tag) (first : Addr) (length : Nat) : List PassWord :=
  (List.range length).map fun i => { tag := tag, index := i, addr := wordAddr first i, write := none }

/-- The index of the first word, from `start` on, whose mask is not 00H (R22, R119). -/
def nextMasked (words : List WriteWord) (start : Nat) : Option Nat :=
  ((List.range words.length).drop start).find? fun i => (words[i]?).any fun w => w.mask != 0

/-- The number of words before an index whose mask is not 00H. -/
def maskedBefore (words : List WriteWord) (index : Nat) : Nat := ((words.take index).filter fun w => w.mask != 0).length

/-- The shield withholds a word at an address: the mode is not BYPASS and the word lies in a bank of an enabled region (R15). -/
def State.shielded (s : State) (a : Addr) : Bool := s.mode != .bypass && inAnyBank s.regions a

/-- Word `index` of a PLAIN write is withheld (R15, R119): the REFUSED event, no further word, the intake IDLE, and the response
once the words already offered have completed. -/
def State.withhold (s : State) (w : PlainWrite) (index : Nat) : State :=
  let refused := (s.setIntake .idle).raise (refusedReport .shield (wordAddr w.start index) w.tag)
  match refused.record? w.tag with
  | none => refused
  | some r => refused.storeRecord { r with withheld := true, awaited := maskedBefore w.words index }

/-- The intake offers the next word of a PLAIN write, from its position on, whose mask is not 00H; the shield may withhold it;
with no word left the intake returns to IDLE (R119). -/
def State.offerPlain (s : State) (w : PlainWrite) : State :=
  match nextMasked w.words w.position with
  | none => s.setIntake .idle
  | some i =>
    if s.shielded (wordAddr w.start i) then s.withhold w i
    else (s.setIntake (.plainWrite { w with position := i })).produce
      [{ tag := w.tag, index := i, addr := wordAddr w.start i, write := w.words[i]? }]

/-- A word of the pass-through sequence has been granted, or has failed on being offered: the intake offers the next word of
its PLAIN write (R119), and a released read leaves the hold list with its last word (R60, R62). -/
def State.wordPassed (s : State) (x : PassWord) : State :=
  match x.write with
  | some _ =>
    match s.host.intake with
    | .plainWrite w => if w.tag = x.tag then s.offerPlain { w with position := x.index + 1 } else s
    | .idle => s
    | .liveWrite _ _ => s
    | .liveRead _ => s
  | none =>
    { s with merge := { s.merge with hold := s.merge.hold.filter fun h => !(h.tag == x.tag && h.length == x.index + 1) } }

/-- At an ARM that passes validation, the word standing offered is checked again and withdrawn if it is withheld (R15, R119). -/
def State.recheckOffered (s : State) : State :=
  match s.host.intake with
  | .plainWrite w =>
    if s.shielded (wordAddr w.start w.position) then
      State.withhold
        { s with port := { s.port with offered := s.port.offered.filter fun x => !(x.tag == w.tag && x.write.isSome) } } w w.position
    else s
  | .idle => s
  | .liveWrite _ _ => s
  | .liveRead _ => s

/-! ### The merge queue and the hold list (Chapter 3) -/

/-- A held read covers a word (R47, R59). -/
def HeldRead.covers (h : HeldRead) (a : Addr) : Bool := Machine.covers h.first h.length a

/-- A WAITING entry is eligible: no older entry for its word and no earlier held read covering it remains (R47). -/
def MergeEngine.eligible (m : MergeEngine) (e : MergeEntry) : Bool :=
  e.state == .waiting && m.queue.all (fun o => !(o.addr == e.addr && decide (o.stamp < e.stamp))) &&
    m.hold.all fun h => !(h.covers e.addr && decide (h.stamp < e.stamp))

/-- The merge reads offered: the eligible entries, oldest first (R130). -/
def MergeEngine.eligibleReads (m : MergeEngine) : List MergeEntry := m.queue.filter m.eligible

/-- The entry's write-back stands offered (R49, R130). -/
def MergeEntry.offersWriteBack (e : MergeEntry) : Bool :=
  match e.state with
  | .writing _ _ issued => !issued
  | .waiting => false
  | .reading => false

/-- An entry is changed in place. -/
def updateEntry (queue : List MergeEntry) (stamp : Nat) (f : MergeEntry → MergeEntry) : List MergeEntry :=
  queue.map fun e => if e.stamp = stamp then f e else e

/-- The queue is replaced. -/
def State.setQueue (s : State) (q : List MergeEntry) : State := { s with merge := { s.merge with queue := q } }

/-- The entry with a stamp. -/
def State.entry? (s : State) (stamp : Nat) : Option MergeEntry := s.merge.queue.find? fun e => e.stamp == stamp

/-- The bank base that live accesses of a region address at this moment (R42). -/
def State.liveBank (s : State) (ix : RegionIx) : Bank :=
  match s.regions[ix].group with
  | none => .a
  | some g => s.groups[g].active

/-- The physical address of a live offset at this moment (R42). -/
def State.physical (s : State) (ix : RegionIx) (offset : Addr) : Addr := s.regions[ix].bankBase (s.liveBank ix) + offset

/-- A held read after an entry has left its blocker set; it enters RELEASED when the set becomes empty (R60). -/
def HeldRead.unblock (h : HeldRead) (stamp : Nat) : HeldRead :=
  let left := h.blockers.filter fun x => !(x == stamp)
  { h with blockers := left, state := if left.isEmpty then .released else h.state }

/-- The removal of an entry empties the blocker set of this read (R60). -/
def HeldRead.freedBy (h : HeldRead) (stamp : Nat) : Bool :=
  h.state == .blocked && (h.blockers.filter fun x => !(x == stamp)).isEmpty

/-- The removed entry is taken out of every blocker set, and the words of the reads it releases are produced in the order of
the hold list (R60). -/
def State.unblockAll (s : State) (stamp : Nat) : State :=
  let freed := s.merge.hold.filter fun h => h.freedBy stamp
  State.produce { s with merge := { s.merge with hold := s.merge.hold.map fun h => h.unblock stamp } }
    (freed.flatMap fun h => readWords h.tag h.first h.length)

/-- An entry leaves the queue, retired (no fault) or removed with one MEM_FAULT of a cause and word state (R51 to R55). -/
def State.removeEntry (s : State) (e : MergeEntry) (fault : Option (Cause × ReportedState)) : State :=
  let gone := s.setQueue (s.merge.queue.eraseP fun x => x.stamp == e.stamp)
  let reported := match fault with
    | none => gone
    | some (cause, word) => gone.raise (memFaultReport e cause word)
  (reported.unblockAll e.stamp).reportRemoval e.group e.bank

/-- The youngest entry for a word (R42). -/
def youngest (queue : List MergeEntry) (a : Addr) : Option MergeEntry := (queue.filter fun e => e.addr == a).getLast?

/-- The entry takes further contributions: WAITING and not pinned (R42). -/
def MergeEntry.joinable (e : MergeEntry) : Bool := e.state == .waiting && !e.pinned

/-- An entry after a contribution has joined it (R29, R43). -/
def MergeEntry.join (e : MergeEntry) (lanes : List (Option LaneOperand)) : MergeEntry :=
  { e with lanes := joinLanes e.operation e.width e.lanes lanes, count := Nat.min 65535 (e.count + 1) }

/-- The entry that a contribution of a region appends (R39, R41). -/
def State.newEntry (s : State) (ix : RegionIx) (offset : Addr) (word : WriteWord) : MergeEntry :=
  let r := s.regions[ix]
  { stamp := s.merge.nextStamp
    addr := s.physical ix offset
    region := ix
    group := r.group
    bank := s.liveBank ix
    epoch := r.group.map fun g => s.groups[g].epoch
    operation := r.operation
    width := r.width
    lanes := contributionLanes r.width word
    count := 1
    pinned := false
    state := .waiting }

/-- A contribution is presented: it joins the youngest entry for its word, or is appended; none when it cannot be taken for want
of a position (R42, R44). -/
def State.contribute (s : State) (ix : RegionIx) (offset : Addr) (word : WriteWord) : Option State :=
  let appended : Option State :=
    if s.merge.queue.length < Config.queueDepth then
      some { s with merge := { s.merge with queue := s.merge.queue ++ [s.newEntry ix offset word], nextStamp := s.merge.nextStamp + 1 } }
    else none
  match youngest s.merge.queue (s.physical ix offset) with
  | none => appended
  | some y =>
    if y.joinable then
      some (s.setQueue (updateEntry s.merge.queue y.stamp fun e => e.join (contributionLanes s.regions[ix].width word)))
    else appended

/-- The last contribution of a LIVE write has been taken: OK is sent, the tag leaves the set, the intake is IDLE, and a pending
flip of the region's group comes to its cut point (R77, R120). -/
def State.finishLiveWrite (s : State) (w : LiveWrite) : State :=
  let answered := ((s.setIntake .idle).closeRecord w.tag).answer { tag := w.tag, status := .ok, data := [] }
  match s.regions[w.region].group with
  | none => answered
  | some g => answered.cutPoint g

/-- The intake presents the word at the position of its LIVE write, and goes on to the next one that is not skipped (R44,
R120). -/
def State.presentWord (s : State) (w : LiveWrite) : State :=
  match w.words[w.position]? with
  | none => s
  | some word =>
    match s.contribute w.region (wordAddr w.offset w.position) word with
    | none => s.setIntake (.liveWrite w true)
    | some taken =>
      match nextMasked w.words (w.position + 1) with
      | some i => taken.setIntake (.liveWrite { w with position := i } false)
      | none => taken.finishLiveWrite w

/-- An open LIVE read is presented: direct, held, or stalled (R57, R59, R61, R121). -/
def State.presentRead (s : State) (r : LiveRead) : State :=
  let first := s.physical r.region r.offset
  let blockers := s.merge.queue.filter fun e => covers first r.length e.addr
  if blockers.isEmpty then (s.setIntake .idle).produce (readWords r.tag first r.length)
  else if s.merge.hold.length < Config.holdDepth then
    { (s.setIntake .idle) with
      merge := {
        queue := s.merge.queue.map fun e => if covers first r.length e.addr then { e with pinned := true } else e
        hold := s.merge.hold ++ [{
          stamp := s.merge.nextStamp, tag := r.tag, first := first, length := r.length
          blockers := blockers.map MergeEntry.stamp, state := .blocked, issued := 0 }]
        nextStamp := s.merge.nextStamp + 1 } }
  else s.setIntake (.liveRead r)

/-! ### The scrub engine (Chapter 5) -/

/-- The scrub engine with a job to go on with: OFFERING when the port is UP, else PAUSED (R100). -/
def PortState.scrubMay (p : PortState) : EngineState :=
  match p with
  | .up => .offering
  | .failed => .paused
  | .recovering _ => .paused

/-- A job for a bank of a region, at its creation (R95, R96). -/
def Region.job (r : Region) (ix : RegionIx) (bank : Bank) : ScrubJob where
  region := ix
  bank := bank
  base := r.bankBase bank
  size := r.spanWords
  pattern := r.patternWord
  cursor := 0
  failed := 0
  firstFailed := none

/-- Jobs are appended at the young end; an IDLE engine takes the first of them up (R97, R98, R100). -/
def State.appendJobs (s : State) (jobs : List ScrubJob) : State :=
  let engine := if s.scrub.engine = .idle && !jobs.isEmpty then s.port.state.scrubMay else s.scrub.engine
  { s with scrub := { engine := engine, jobs := s.scrub.jobs ++ jobs } }

/-- The startup jobs: one for each bank of each enabled region, in ascending region index, bank A first (R98, R160). -/
def startupJobs (regions : Vector Region 16) : List ScrubJob :=
  allRegions.flatMap fun ix =>
    let r := regions[ix]
    if !r.enabled then [] else if r.group.isSome then [r.job ix .a, r.job ix .b] else [r.job ix .a]

/-- The jobs of a RELEASE: one for each enabled region of the group, for the held bank (R86). -/
def releaseJobs (regions : Vector Region 16) (g : GroupIx) (held : Bank) : List ScrubJob :=
  (allRegions.filter fun ix => regions[ix].belongsTo g).map fun ix => regions[ix].job ix held

/-- The address of the word at the cursor (R95). -/
def ScrubJob.cursorAddr (j : ScrubJob) : Addr := wordAddr j.base j.cursor

/-- The job after the write of the word at its cursor has been answered or has failed (R102, R103). -/
def ScrubJob.step (j : ScrubJob) (failed : Bool) : ScrubJob :=
  { j with
    cursor := j.cursor + 1
    failed := if failed then j.failed + 1 else j.failed
    firstFailed := if failed && j.firstFailed.isNone then some j.cursorAddr else j.firstFailed }

/-- The scrub engine reports a completed job to the flip controller (R87): the last job of a CLEANING group takes it to READY. -/
def State.reportJobDone (s : State) (ix : RegionIx) : State :=
  match s.regions[ix].group with
  | none => s
  | some g =>
    if s.groups[g].state = .cleaning && s.scrub.jobs.all (fun j => !(s.regions[j.region].group == some g)) then s.enterReady g else s

/-- A completed job with failed words raises SCRUB_FAULT (R104 step 1, R105). -/
def State.reportFailedWords (s : State) (j : ScrubJob) : State := if j.failed = 0 then s else s.raise (scrubFaultReport j)

/-- A completed job leaves the list, and the jobs behind it move up (R104 steps 2 and 4). -/
def State.dropJob (s : State) (rest : List ScrubJob) : State :=
  { s with scrub := { engine := if rest.isEmpty then .idle else s.port.state.scrubMay, jobs := rest } }

/-- STARTING ends when the job list is empty (R162). -/
def State.judgeStarting (s : State) : State := if s.mode = .starting && s.scrub.jobs.isEmpty then s.endStarting else s

/-- The completion of the active job, with the jobs behind it (R104). -/
def State.completeJob (s : State) (j : ScrubJob) (rest : List ScrubJob) : State :=
  (((s.reportFailedWords j).dropJob rest).reportJobDone j.region).judgeStarting

/-- The response to the issued scrub write has been taken, or it has failed (R102, R103, R104). -/
def State.scrubDone (s : State) (failed : Bool) : State :=
  match s.scrub.jobs with
  | [] => s
  | j :: rest =>
    let next := j.step failed
    if next.cursor = next.size then s.completeJob next rest
    else { s with scrub := { engine := s.port.state.scrubMay, jobs := next :: rest } }

/-- The port enters FAILED with the engine OFFERING: the offer is withdrawn and the engine is PAUSED; the starvation count
becomes 0 (R106, R136). -/
def State.pauseScrub (s : State) : State :=
  { s with
    scrub := { s.scrub with engine := if s.scrub.engine = .offering then .paused else s.scrub.engine }
    port := { s.port with starvation := 0 } }

/-- An outstanding scrub write loses its job (R107, R128). -/
def Outstanding.orphan (o : Outstanding) : Outstanding :=
  match o.owner with
  | .scrubWrite _ => { o with owner := .scrubWrite none }
  | .mergeRead _ => o
  | .mergeWrite _ => o
  | .passRead _ _ => o
  | .passWrite _ _ => o

/-- The job list is discarded (R107, R132). -/
def State.discardJobs (s : State) : State :=
  { s with
    scrub := { engine := .idle, jobs := [] }
    port := { s.port with
      outstanding := s.port.outstanding.map Outstanding.orphan
      starvation := if s.scrub.engine = .offering then 0 else s.port.starvation } }

/-! ### The arbiter (section 7.3) -/

/-- The scrub write standing offered (R130). -/
def State.scrubOffer (s : State) : Option ScrubJob := if s.scrub.engine = .offering then s.scrub.jobs.head? else none

/-- A request that stands before the arbiter (R130). -/
inductive Offer where
  | scrub (j : ScrubJob)
  | writeBack (e : MergeEntry)
  | word (x : PassWord)
  | mergeRead (e : MergeEntry)
  deriving DecidableEq, Repr

/-- The winner at places 2 to 4 (R131). -/
def State.trafficWinner (s : State) : Option Offer :=
  match s.merge.queue.find? MergeEntry.offersWriteBack with
  | some e => some (.writeBack e)
  | none =>
    match s.port.offered with
    | x :: _ => some (.word x)
    | [] => (s.merge.queue.find? s.merge.eligible).map .mergeRead

/-- The winner of the next grant (R131). DESIGN CHOICE (log 27; unsafe): a scrub write takes its place in this order also where a word
of a live read of its bank stands offered, though R58 and R109 say that none does. -/
def State.winner (s : State) : Option Offer :=
  match s.scrubOffer with
  | none => s.trafficWinner
  | some j => if s.port.share - 1 ≤ s.port.starvation then some (.scrub j) else some (s.trafficWinner.getD (.scrub j))

/-- The starvation count after a grant (R132). -/
def State.starvationAfter (s : State) (toScrub : Bool) : Nat :=
  if s.scrub.engine = .offering && !toScrub then s.port.starvation + 1 else 0

/-- The granted request enters the outstanding list with its deadline and goes down the memory link (R128, R131, R134). -/
def State.issue (s : State) (owner : Owner) (a : Addr) (request : MemRequest) (now : Nat) (toScrub : Bool) : State :=
  State.sendDown
    { s with port := { s.port with
        outstanding := s.port.outstanding ++ [{ owner := owner, addr := a, deadline := now + s.port.timeout }]
        starvation := s.starvationAfter toScrub } }
    request

/-- The entry with its write-back issued (R49). -/
def MergeEntry.writeIssued (e : MergeEntry) : MergeEntry :=
  match e.state with
  | .writing d r _ => { e with state := .writing d r true }
  | .waiting => e
  | .reading => e

/-- The write-back word of an entry in WRITING (R49). -/
def MergeEntry.writeBack (e : MergeEntry) : Word64 :=
  match e.state with
  | .writing _ r _ => r
  | .waiting => 0
  | .reading => 0

/-- The owner and the memory request of a pass-through word (R127, R128). -/
def PassWord.request (x : PassWord) : Owner × MemRequest :=
  match x.write with
  | none => (.passRead x.tag x.index, .read x.addr)
  | some w => (.passWrite x.tag x.index, .write x.addr w.mask w.data)

/-- A word of a released read counts as issued (R60). -/
def countIssued (hold : List HeldRead) (x : PassWord) : List HeldRead :=
  if x.write.isSome then hold else hold.map fun h => if h.tag == x.tag then { h with issued := h.issued + 1 } else h

/-- The grant of an offer (R131), with what its source does on being told. -/
def State.grantOffer (s : State) (o : Offer) (now : Nat) : State :=
  match o with
  | .scrub j =>
    let issued := s.issue (.scrubWrite (some { region := j.region, bank := j.bank })) j.cursorAddr
      (.write j.cursorAddr 0xFF#8 j.pattern) now true
    { issued with scrub := { issued.scrub with engine := .issued } }
  | .writeBack e =>
    (s.issue (.mergeWrite e.stamp) e.addr (.write e.addr 0xFF#8 e.writeBack) now false).setQueue
      (updateEntry s.merge.queue e.stamp MergeEntry.writeIssued)
  | .word x =>
    let issued := s.issue x.request.1 x.addr x.request.2 now false
    State.wordPassed
      { issued with
        port := { issued.port with offered := s.port.offered.tail }
        merge := { issued.merge with hold := countIssued s.merge.hold x } } x
  | .mergeRead e =>
    (s.issue (.mergeRead e.stamp) e.addr (.read e.addr) now false).setQueue
      (updateEntry s.merge.queue e.stamp fun x => { x with state := .reading })

/-! ### Failing requests (R53, R122, R136, R137) -/

/-- A request to be failed: one that was outstanding, with its cause, or one that a source offers to a FAILED port. -/
inductive Failing where
  | outstanding (o : Outstanding) (cause : Cause)
  | writeBack (e : MergeEntry)
  | word (x : PassWord)
  | mergeRead (e : MergeEntry)
  deriving DecidableEq, Repr

/-- The entry with a stamp, if it still stands, is removed with a MEM_FAULT. -/
def State.faultEntry (s : State) (stamp : Nat) (cause : Cause) (word : ReportedState) : State :=
  match s.entry? stamp with
  | none => s
  | some e => s.removeEntry e (some (cause, word))

/-- One request is failed and its failure is handed to its source (R53, R103, R122, R136, R137). -/
def State.failOne (s : State) (f : Failing) : State :=
  match f with
  | .outstanding o cause =>
    match o.owner with
    | .mergeRead stamp => s.faultEntry stamp cause .unchanged
    | .mergeWrite stamp => s.faultEntry stamp cause .indeterminate
    | .passRead tag index => s.completeWord tag index true 0
    | .passWrite tag index => s.completeWord tag index true 0
    | .scrubWrite (some _) => s.scrubDone true
    | .scrubWrite none => s
  | .writeBack e => s.faultEntry e.stamp .portDown .unchanged
  | .word x => (s.completeWord x.tag x.index true 0).wordPassed x
  | .mergeRead e => s.faultEntry e.stamp .portDown .unchanged

/-- The merge reads that stand offered now and did not before. -/
def newReads (before after : MergeEngine) : List MergeEntry :=
  after.eligibleReads.filter fun e => !before.eligibleReads.any fun o => o.stamp == e.stamp

/-- The requests are failed in their order; what a failure leads its source to offer is failed at that moment, before the next
(R136, R137; log 11). `fuel` bounds the number of failures. -/
def cascade : Nat → List Failing → State → State
  | 0, _, s => s
  | _ + 1, [], s => s
  | fuel + 1, f :: rest, s =>
    let failed := s.failOne f
    let offered := failed.port.offered.map Failing.word ++ (newReads s.merge failed.merge).map Failing.mergeRead
    cascade fuel (offered ++ rest) { failed with port := { failed.port with offered := [] } }

/-- The words the intake may still offer. -/
def Intake.wordCount (i : Intake) : Nat :=
  match i with
  | .plainWrite w => w.words.length
  | .idle => 0
  | .liveWrite _ _ => 0
  | .liveRead _ => 0

/-- A bound on the failures of a cascade: each request given fails once, and each entry, each word of a held read and each word
of the intake's PLAIN write is offered at most once more. -/
def State.cascadeFuel (s : State) (fs : List Failing) : Nat :=
  fs.length + s.merge.queue.length + (s.merge.hold.map HeldRead.length).sum + s.host.intake.wordCount + 1

/-- The requests are failed with all they lead to. -/
def State.failAll (s : State) (fs : List Failing) : State := cascade (s.cascadeFuel fs) fs s

/-- Every request standing offered, in the arbiter's order (R136 step 4). -/
def State.standing (s : State) : List Failing :=
  (s.merge.queue.filter MergeEntry.offersWriteBack).map Failing.writeBack ++ s.port.offered.map Failing.word ++
    s.merge.eligibleReads.map Failing.mergeRead

/-- While the port is FAILED, every request that stands offered is failed at once (R137). -/
def State.settle (s : State) : State :=
  if s.port.state = .failed then State.failAll { s with port := { s.port with offered := [] } } s.standing else s

/-- The port enters FAILED (R136): PORT_FAILED, the outstanding requests in issue order, the scrub engine's offer, and then every
standing offer. `timedOut` is present when a request in the list timed out, and absent for a probe (R141). -/
def State.enterFailed (s : State) (timedOut : Option Outstanding) : State :=
  let cause : Cause := if timedOut.isSome then .timeout else .probe
  let raised := s.raise (portFailedReport cause (timedOut.map Outstanding.addr) s.port.outstanding.length)
  let down := { raised with port := { raised.port with state := .failed, outstanding := [], offered := [] } }
  let requests := match s.port.outstanding with
    | [] => []
    | o :: os => Failing.outstanding o .timeout :: os.map fun x => Failing.outstanding x .portDown
  let failed := (down.failAll requests).pauseScrub
  State.settle { failed with port := { failed.port with offered := s.port.offered } }

/-! ### Responses (R129, R50) -/

/-- The read data of an entry has returned OK: the lane unit is applied, its records are raised, and the entry enters WRITING
(R24, R50). -/
def State.compute (s : State) (e : MergeEntry) (data : Word64) : State :=
  let r := s.regions[e.region]
  let judged := judgeLanes r.clampReport e (laneOutcomes e r.threshold data) r.lastClamp
  State.raiseAll
    { s with
      regions := s.regions.set e.region { r with lastClamp := judged.2 }
      merge := { s.merge with
        queue := updateEntry s.merge.queue e.stamp fun x => { x with state := .writing data (writeBackWord e data) false } } }
    judged.1

/-- The response is the READ response, OK, and its data. -/
def readDataOf (m : MemResponse) : Option Word64 :=
  match m with
  | .read true d => some d
  | .read false _ => none
  | .write _ => none
  | .probe _ => none

/-- The response is the WRITE response, OK. -/
def writeAcknowledged (m : MemResponse) : Bool :=
  match m with
  | .write ok => ok
  | .read _ _ => false
  | .probe _ => false

/-- The outcome of the oldest request is handed to its source; a response of the wrong kind counts as an error (R129). -/
def State.handResponse (s : State) (o : Outstanding) (m : MemResponse) : State :=
  match o.owner with
  | .mergeRead stamp =>
    match s.entry? stamp with
    | none => s
    | some e =>
      match readDataOf m with
      | some d => s.compute e d
      | none => s.removeEntry e (some (.readError, .unchanged))
  | .mergeWrite stamp =>
    match s.entry? stamp with
    | none => s
    | some e => s.removeEntry e (if writeAcknowledged m then none else some (.writeError, .indeterminate))
  | .passRead tag index => s.completeWord tag index (readDataOf m).isNone ((readDataOf m).getD 0)
  | .passWrite tag index => s.completeWord tag index (!writeAcknowledged m) 0
  | .scrubWrite (some _) => s.scrubDone (!writeAcknowledged m)
  | .scrubWrite none => s

/-- The deadline of the request that has become the oldest has passed (R135; log 3). -/
def State.oldestLapsed (s : State) (now : Nat) : Bool :=
  s.port.state = .up && s.port.outstanding.head?.any fun o => decide (o.deadline < now)

/-- The oldest request times out and the port enters FAILED (R135). -/
def State.timeOut (s : State) : State := (s.enterFailed s.port.outstanding.head?).judgeStopping

/-- The current probe is answered (R139): UP, PORT_RECOVERED, and the scrub engine goes on. -/
def State.recoverPort (s : State) : State :=
  State.raise
    { s with
      port := { s.port with state := .up }
      scrub := { s.scrub with engine := if s.scrub.jobs.isEmpty then s.scrub.engine else .offering } }
    { kind := .portRecovered }

/-- A PROBE response arrives: the answer to the current probe while the port is RECOVERING, else discarded (R129, R139). -/
def State.takeProbe (s : State) (number : Byte) : State :=
  match s.port.state with
  | .recovering _ => if number = s.port.probeNumber then s.recoverPort else s
  | .up => s
  | .failed => s

end Sys2Proof.Machine
end

