-- ==== Sys2Proof/Machine/HostPort.lean ====
section
/-! DEFINITION. The steps of the host port and of the merge engine that it drives: HOST_REQUEST, CONTRIBUTION and
STALLED_READ_PRESENTED (Chapters 3 and 6). -/

namespace Sys2Proof.Machine

/-- The outcome of every command. -/
abbrev Result := Host.Outcome State Fault Refusal

/-- A request is refused at taking (R116). -/
def State.refuseRequest (s : State) (r : HostRequest) (reason : Cause) : State :=
  (s.raise (refusedReport reason (startOf r) r.tag)).answer { tag := r.tag, status := .refused, data := [] }

/-- A request is answered BUSY at taking (R117). -/
def State.answerBusy (s : State) (r : HostRequest) : State := s.answer { tag := r.tag, status := .busy, data := [] }

/-- A write whose every word has mask 00H is answered OK in the taking step (R119, R120). -/
def State.answerOk (s : State) (r : HostRequest) : State := s.answer { tag := r.tag, status := .ok, data := [] }

/-- A pass-through read is taken: its record, and all its words (R118). -/
def State.takePassRead (s : State) (tag : Tag) (cls : TxClass) (first : Addr) (length : Nat) : State :=
  (s.openRecord (newRecord tag .read cls length length)).produce (readWords tag first length)

/-- A PLAIN write is taken: answered at once when every mask is 00H, else its first word is offered (R119). -/
def State.takePlainWrite (s : State) (r : HostRequest) (words : List WriteWord) : State :=
  match nextMasked words 0 with
  | none => s.answerOk r
  | some _ =>
    (s.openRecord (newRecord r.tag .write .plain words.length (maskedBefore words words.length))).offerPlain
      { tag := r.tag, start := startOf r, words := words, position := 0 }

/-- An open LIVE write is taken: answered at once when every mask is 00H, else its first contribution is presented (R120). -/
def State.takeLiveWrite (s : State) (r : HostRequest) (ix : RegionIx) (offset : Addr) (words : List WriteWord) : State :=
  match nextMasked words 0 with
  | none => s.answerOk r
  | some i =>
    let w : LiveWrite := { tag := r.tag, region := ix, offset := offset, words := words, position := i }
    ((s.openRecord (newRecord r.tag .write .live words.length 0)).setIntake (.liveWrite w false)).presentWord w

/-- An open LIVE read is taken: its record, and R57 (R121). -/
def State.takeLiveRead (s : State) (tag : Tag) (ix : RegionIx) (offset : Addr) (length : Nat) : State :=
  (s.openRecord (newRecord tag .read .live length length)).presentRead { tag := tag, region := ix, offset := offset, length := length }

/-- An open SNAP read is taken: served from the held bank in HELD, else BUSY (R91). -/
def State.takeSnapRead (s : State) (r : HostRequest) (ix : RegionIx) (offset : Addr) (length : Nat) : State :=
  match s.regions[ix].group with
  | none => s.answerBusy r
  | some g =>
    if s.groups[g].state = .held then
      s.takePassRead r.tag .snap (s.regions[ix].bankBase s.groups[g].active.other + offset) length
    else s.answerBusy r

/-- The intake takes a request: tag, decode, closed mark, class and kind, hand-on, in this order (R113). It is decoded in the mode of
this moment (R7). DESIGN CHOICE (log 28; unsafe): a request for LIVE or SNAP addresses that meets the removal which ends STOPPING, and is
taken after it, is PLAIN; R166 says so of requests taken after that step, and also that such a pair ends in BUSY in either order. -/
def State.takeRequest (s : State) (r : HostRequest) : State :=
  if (s.record? r.tag).isSome then s.refuseRequest r .dupTag
  else
    match decodeRequest s.mode s.regions r, r.kind with
    | .malformed, _ => s.refuseRequest r .malformed
    | .live _ _ false, _ => s.answerBusy r
    | .snap _ _ false, _ => s.answerBusy r
    | .aliasBank _, .write _ => s.refuseRequest r .shield
    | .snap _ _ true, .write _ => s.refuseRequest r .snapWrite
    | .snap ix offset true, .read n => s.takeSnapRead r ix offset n.val
    | .plain, .read n => s.takePassRead r.tag .plain (startOf r) n.val
    | .aliasBank _, .read n => s.takePassRead r.tag .aliasBank (startOf r) n.val
    | .plain, .write words => s.takePlainWrite r words
    | .live ix offset true, .write words => s.takeLiveWrite r ix offset words
    | .live ix offset true, .read n => s.takeLiveRead r.tag ix offset n.val

/-- The request channel with a request that arrives behind those already waiting (R111; log 4). -/
def State.arrive (s : State) (arriving : Option HostRequest) : State :=
  { s with host := { s.host with channel := s.host.channel ++ arriving.toList } }

/-- An IDLE intake takes the request at the head of the channel; any other intake takes none (R111, R113). -/
def State.takeNext (s : State) : State :=
  if s.host.intake = .idle then
    match s.host.channel with
    | [] => s
    | r :: rest => (State.takeRequest { s with host := { s.host with channel := rest } } r).settle
  else s

/-- HOST_REQUEST (R113). While RESET is asserted the channel takes no request (R126). -/
def execHostRequest (arriving : Option HostRequest) (s : State) : Result := .next (s.unlessReset (s.arrive arriving).takeNext)

/-- The intake presents the word at the position of its open LIVE write (R42, R44, R120). Without one, nothing is presented
(log 6). -/
def State.presentNext (s : State) : State :=
  match s.host.intake with
  | .liveWrite w _ => (s.presentWord w).settle.judgeStopping
  | .idle => s
  | .plainWrite _ => s
  | .liveRead _ => s

/-- CONTRIBUTION (R42, R44, R120). In STOPPING the write goes on presenting, appending and stalling as R46, R157 and R165 say;
R64 speaks there of no new entry and no stall (DESIGN CHOICE, log 24). -/
def execContribution (s : State) : Result := .next (s.unlessReset s.presentNext)

/-- The intake presents its stalled LIVE read again, R57 applied afresh, once a held read has left the list (R61). While 4 reads are
held it stays stalled, whatever its blockers (DEDUCED, log 26). Without a stalled read, nothing is presented (log 6). -/
def State.presentStalled (s : State) : State :=
  match s.host.intake with
  | .liveRead r => if s.merge.hold.length < Config.holdDepth then (s.presentRead r).settle.judgeStopping else s
  | .idle => s
  | .plainWrite _ => s
  | .liveWrite _ _ => s

/-- STALLED_READ_PRESENTED (R61, R121). -/
def execStalledReadPresented (s : State) : Result := .next (s.unlessReset s.presentStalled)

end Sys2Proof.Machine
end

