-- ==== Sys2Proof/Machine/Layout.lean ====
section
/-! DEFINITION. The codes and byte layouts of the management link (R176, R179 to R181). -/

namespace Sys2Proof.Machine

/-! ### Bytes -/

/-- A number as `n` bytes, most significant byte first (R179). -/
def natBytes : Nat → Nat → List Byte
  | 0, _ => []
  | n + 1, v => BitVec.ofNat 8 (v / 256 ^ n) :: natBytes n v

/-- The number that bytes give, most significant byte first (R179). -/
def bytesNat (bytes : List Byte) : Nat := bytes.foldl (fun acc x => acc * 256 + x.toNat) 0

/-- The number in bytes `start` to `start + n - 1` of a layout. -/
def fieldAt (bytes : List Byte) (start n : Nat) : Nat := bytesNat ((bytes.drop start).take n)

/-- A yes or no as its code, 00H no and 01H yes (R179). -/
def flagByte (x : Bool) : Byte := if x then 1 else 0

/-- A byte of presence bits, bit 0 first (R179). -/
def presence (bits : List Bool) : Byte := BitVec.ofNat 8 (bits.foldr (fun x acc => (if x then 1 else 0) + 2 * acc) 0)

/-- An optional number as `n` bytes, sent as 00H when absent (R179). -/
def optBytes (n : Nat) (v : Option Nat) : List Byte := natBytes n (v.getD 0)

/-! ### Codes (R179) -/

/-- The code of a mode. -/
def Mode.code : Mode → Byte
  | .bypass => 0
  | .starting => 1
  | .run => 2
  | .stopping => 3

/-- The code of an ARM option. -/
def ArmOption.code : ArmOption → Byte
  | .scrubAll => 1
  | .keep => 2

/-- The ARM option that a code names (R158). -/
def armOptionOf (code : Byte) : Option ArmOption :=
  match code.toNat with
  | 1 => some .scrubAll
  | 2 => some .keep
  | _ => none

/-- The code of a port state. -/
def PortState.code : PortState → Byte
  | .up => 0
  | .failed => 1
  | .recovering _ => 2

/-- The code of the intake state (R112). -/
def Intake.code : Intake → Byte
  | .idle => 0
  | .plainWrite _ => 1
  | .liveWrite _ stalled => if stalled then 2 else 1
  | .liveRead _ => 2

/-- The code of a group state. -/
def GroupState.code : GroupState → Byte
  | .off => 0
  | .ready => 1
  | .draining => 2
  | .held => 3
  | .cleaning => 4

/-- The code of an event's state field. -/
def ReportedState.code : ReportedState → Byte
  | .group g => g.code
  | .unchanged => 8
  | .indeterminate => 9

/-- The code of a bank. -/
def Bank.code : Bank → Byte
  | .a => 0
  | .b => 1

/-- The code of an operation. -/
def Operation.code : Operation → Byte
  | .wrapAdd => 0
  | .satAdd => 1
  | .satSub => 2
  | .max => 3
  | .min => 4
  | .bitSet => 5
  | .bitClear => 6
  | .replace => 7

/-- The operation that a code names. -/
def operationOf (code : Byte) : Option Operation :=
  match code.toNat with
  | 0 => some .wrapAdd
  | 1 => some .satAdd
  | 2 => some .satSub
  | 3 => some .max
  | 4 => some .min
  | 5 => some .bitSet
  | 6 => some .bitClear
  | 7 => some .replace
  | _ => none

/-- The code of a lane width. -/
def LaneWidth.code : LaneWidth → Byte
  | .w8 => 0
  | .w16 => 1
  | .w32 => 2
  | .w64 => 3

/-- The lane width that a code names. -/
def widthOf (code : Byte) : Option LaneWidth :=
  match code.toNat with
  | 0 => some .w8
  | 1 => some .w16
  | 2 => some .w32
  | 3 => some .w64
  | _ => none

/-- The code of a scrub pattern. -/
def ScrubPattern.code : ScrubPattern → Byte
  | .identity => 0
  | .preset => 1

/-- The scrub pattern that a code names. -/
def patternOf (code : Byte) : Option ScrubPattern :=
  match code.toNat with
  | 0 => some .identity
  | 1 => some .preset
  | _ => none

/-- The code of a clamp report. -/
def ClampReport.code : ClampReport → Byte
  | .off => 0
  | .once => 1
  | .each => 2

/-- The clamp report that a code names. -/
def clampReportOf (code : Byte) : Option ClampReport :=
  match code.toNat with
  | 0 => some .off
  | 1 => some .once
  | 2 => some .each
  | _ => none

/-- The yes or no that a code names. -/
def yesNoOf (code : Byte) : Option Bool :=
  match code.toNat with
  | 0 => some false
  | 1 => some true
  | _ => none

/-- The code of a region record's group field: 00H none, 01H-04H groups 0-3. -/
def regionGroupCode (g : Option GroupIx) : Byte :=
  match g with
  | none => 0
  | some g => BitVec.ofNat 8 (g.val + 1)

/-- The group field that a code of a region record names. -/
def regionGroupOf (code : Byte) : Option (Option GroupIx) :=
  match code.toNat with
  | 0 => some none
  | 1 => some (some 0)
  | 2 => some (some 1)
  | 3 => some (some 2)
  | 4 => some (some 3)
  | _ => none

/-- The code of a validation reason. -/
def ArmReason.code : ArmReason → Byte
  | .groupFields => 1
  | .wrap => 2
  | .threshold => 3
  | .pattern => 4
  | .overlap => 5

/-- The code of an entry state. -/
def EntryState.code : EntryState → Byte
  | .waiting => 0
  | .reading => 1
  | .writing _ _ _ => 2

/-- The read data of an entry, present in WRITING (R39). -/
def EntryState.readData : EntryState → Option Word64
  | .waiting => none
  | .reading => none
  | .writing d _ _ => some d

/-- The code of a scrub engine state. -/
def EngineState.code : EngineState → Byte
  | .idle => 0
  | .offering => 1
  | .issued => 2
  | .paused => 3

/-- The code of a cause. -/
def Cause.code : Cause → Byte
  | .shield => 0
  | .malformed => 1
  | .snapWrite => 2
  | .dupTag => 3
  | .pin => 4
  | .command => 5
  | .readError => 6
  | .writeError => 7
  | .timeout => 8
  | .portDown => 9
  | .probe => 10
  | .scrubAll => 11
  | .keep => 12

/-- The group that a group index byte names (R177). -/
def groupOf (index : Byte) : Option GroupIx := if h : index.toNat < 4 then some ⟨index.toNat, h⟩ else none

/-- The region that a region index byte names (R177). -/
def regionOf (index : Byte) : Option RegionIx := if h : index.toNat < 16 then some ⟨index.toNat, h⟩ else none

/-! ### Responses (R171, R176) -/

/-- The seven statuses of the management link (R176). -/
inductive Status where
  | done
  | wrongMode
  | refusedState
  | badArgument
  | badFrame
  | armFailed
  | empty
  deriving DecidableEq, Repr

/-- The code of a status (R176). -/
def Status.code : Status → Byte
  | .done => 0
  | .wrongMode => 1
  | .refusedState => 2
  | .badArgument => 3
  | .badFrame => 4
  | .armFailed => 5
  | .empty => 6

/-- The outcome of a command: its status and its response data, whole pairs of bytes (R171, R176). -/
structure Reply where
  status : Status
  data : List Byte
  deriving DecidableEq, Repr

/-- DONE with data. -/
def Reply.done (data : List Byte) : Reply := { status := .done, data := data }

/-- WRONG_MODE with the mode code and a filling byte (R176; log 14). -/
def Reply.wrongMode (m : Mode) : Reply := { status := .wrongMode, data := [m.code, 0] }

/-- REFUSED_STATE with the state found and a filling byte (R176; log 14). -/
def Reply.refusedState (code : Byte) : Reply := { status := .refusedState, data := [code, 0] }

/-- BAD_ARGUMENT with the number of the argument and a filling byte (R176; log 14). -/
def Reply.badArgument (number : Nat) : Reply := { status := .badArgument, data := [BitVec.ofNat 8 number, 0] }

/-- The response frame of an outcome (R171, R174). -/
def Reply.frame (r : Reply) : List Byte := sealFrame r.status.code r.data

/-! ### Layouts (R179) -/

/-- The region record layout, 44 bytes. -/
def Region.layout (r : Region) : List Byte :=
  [flagByte r.enabled, regionGroupCode r.group, r.operation.code, r.width.code, r.pattern.code, r.clampReport.code,
    presence [r.snapBase.isSome, r.bankBBase.isSome, r.preset.isSome, r.threshold.isSome, r.lastClamp.isSome], 0] ++
  natBytes 2 r.size ++ natBytes 4 r.liveBase.toNat ++ optBytes 4 (r.snapBase.map BitVec.toNat) ++
  natBytes 4 r.bankABase.toNat ++ optBytes 4 (r.bankBBase.map BitVec.toNat) ++ optBytes 8 (r.preset.map BitVec.toNat) ++
  optBytes 8 (r.threshold.map BitVec.toNat) ++ optBytes 2 (r.lastClamp.map BitVec.toNat)

/-- The group record layout, 8 bytes. -/
def Group.layout (g : Group) : List Byte :=
  [g.state.code, g.active.code] ++ natBytes 2 g.epoch.toNat ++
  [flagByte g.flipPending, BitVec.ofNat 8 g.drainCount, flagByte g.pinDriven, 0]

/-- The event record layout, 30 bytes. -/
def EventRecord.layout (e : EventRecord) : List Byte :=
  let r := e.report
  [BitVec.ofNat 8 r.kind.code,
    presence [r.group.isSome, r.epoch.isSome, r.region.isSome, r.address.isSome, r.lane.isSome, r.value.isSome, r.count.isSome,
      r.cause.isSome],
    presence [r.state.isSome, r.bank.isSome, false, false, false, false, false, e.lossBefore]] ++
  natBytes 2 e.serial.toNat ++
  optBytes 1 (r.group.map Fin.val) ++ optBytes 1 (r.region.map Fin.val) ++ optBytes 1 r.lane ++
  [(r.cause.map Cause.code).getD 0, (r.state.map ReportedState.code).getD 0, (r.bank.map Bank.code).getD 0, 0] ++
  optBytes 2 (r.epoch.map BitVec.toNat) ++ optBytes 4 (r.address.map BitVec.toNat) ++ optBytes 4 r.count ++
  optBytes 8 (r.value.map BitVec.toNat)

/-- The operand word: each active lane's operand in its lane's bytes, 0 elsewhere (R23, R181). -/
def MergeEntry.operandWord (e : MergeEntry) : Nat := packLanes e.width (e.lanes.map fun x => (x.map LaneOperand.value).getD 0)

/-- The merge entry layout, 34 bytes. -/
def MergeEntry.layout (e : MergeEntry) : List Byte :=
  [BitVec.ofNat 8 e.region.val, (e.group.map fun g => BitVec.ofNat 8 g.val).getD 0,
    presence [e.group.isSome, e.epoch.isSome, e.state.readData.isSome],
    e.bank.code, e.operation.code, e.width.code, e.state.code, flagByte e.pinned,
    presence (e.lanes.map Option.isSome), presence (e.lanes.map fun x => x.any LaneOperand.saturated)] ++
  optBytes 2 (e.epoch.map BitVec.toNat) ++ natBytes 2 e.count ++ natBytes 4 e.addr.toNat ++
  optBytes 8 (e.state.readData.map BitVec.toNat) ++ natBytes 8 e.operandWord

/-- The number of entries whose state has a code. -/
def MergeEngine.countState (m : MergeEngine) (code : Byte) : Nat := (m.queue.filter fun e => e.state.code == code).length

/-- The status layout, 12 bytes (R178). -/
def State.statusLayout (s : State) : List Byte :=
  [s.mode.code, (s.armOption.map ArmOption.code).getD 0, s.port.state.code, s.host.intake.code,
    BitVec.ofNat 8 (s.merge.countState 0), BitVec.ofNat 8 (s.merge.countState 1), BitVec.ofNat 8 (s.merge.countState 2),
    BitVec.ofNat 8 s.merge.hold.length, BitVec.ofNat 8 s.events.queue.length, flagByte s.events.loss,
    flagByte (!s.scrub.jobs.isEmpty), 0]

/-- The scrub status layout, 22 bytes (R110). -/
def ScrubEngine.layout (e : ScrubEngine) : List Byte :=
  let active := e.jobs.head?
  [e.engine.code, BitVec.ofNat 8 e.jobs.length,
    presence [active.isSome, active.any fun j => j.firstFailed.isSome],
    (active.map fun j => BitVec.ofNat 8 j.region.val).getD 0, (active.map fun j => j.bank.code).getD 0, 0] ++
  optBytes 4 (active.map ScrubJob.cursor) ++ optBytes 4 (active.map ScrubJob.size) ++ optBytes 4 (active.map ScrubJob.failed) ++
  optBytes 4 (active.bind fun j => j.firstFailed.map BitVec.toNat)

/-! ### REGION_WRITE (R5, R180) -/

/-- A number is a multiple of 1000H. -/
def aligned (n : Nat) : Bool := n % 4096 == 0

/-- Presence bit `k` of a region record layout. -/
def presentBit (bytes : List Byte) (k : Nat) : Bool := (bytes.getD 6 0).getLsbD k

/-- The checks of fields 1-13 of a region record layout in field order: the number, and whether the field passes (R5, R180). -/
def fieldChecks (bytes : List Byte) : List (Nat × Bool) :=
  [(1, (yesNoOf (bytes.getD 0 0)).isSome),
    (2, aligned (fieldAt bytes 10 4)),
    (3, decide (1 ≤ fieldAt bytes 8 2) && decide (fieldAt bytes 8 2 ≤ 4096)),
    (4, (regionGroupOf (bytes.getD 1 0)).isSome),
    (5, !presentBit bytes 0 || aligned (fieldAt bytes 14 4)),
    (6, aligned (fieldAt bytes 18 4)),
    (7, !presentBit bytes 1 || aligned (fieldAt bytes 22 4)),
    (8, (operationOf (bytes.getD 2 0)).isSome),
    (9, (widthOf (bytes.getD 3 0)).isSome),
    (10, (patternOf (bytes.getD 4 0)).isSome),
    (11, presentBit bytes 2 == (patternOf (bytes.getD 4 0) == some .preset)),
    (12, (clampReportOf (bytes.getD 5 0)).isSome),
    (13, true)]

/-- The first field that fails (R5). -/
def firstFailingField (bytes : List Byte) : Option Nat := ((fieldChecks bytes).find? fun c => !c.2).map Prod.fst

/-- An optional field of a layout: its value when its presence bit is set (R179). -/
def optField (bytes : List Byte) (bit start n width : Nat) : Option (BitVec width) :=
  if presentBit bytes bit then some (BitVec.ofNat width (fieldAt bytes start n)) else none

/-- The record that a layout which passes every check gives, field 14 absent (R4, R180). -/
def regionOfLayout (bytes : List Byte) : Region where
  enabled := (yesNoOf (bytes.getD 0 0)).getD false
  liveBase := BitVec.ofNat 32 (fieldAt bytes 10 4)
  size := fieldAt bytes 8 2
  group := (regionGroupOf (bytes.getD 1 0)).getD none
  snapBase := optField bytes 0 14 4 32
  bankABase := BitVec.ofNat 32 (fieldAt bytes 18 4)
  bankBBase := optField bytes 1 22 4 32
  operation := (operationOf (bytes.getD 2 0)).getD .wrapAdd
  width := (widthOf (bytes.getD 3 0)).getD .w8
  pattern := (patternOf (bytes.getD 4 0)).getD .identity
  preset := optField bytes 2 26 8 64
  clampReport := (clampReportOf (bytes.getD 5 0)).getD .off
  threshold := optField bytes 3 34 8 64
  lastClamp := none

end Sys2Proof.Machine
end

