-- ==== Sys2Proof/Machine/Link.lean ====
section
/-! DEFINITION. The management link: transfers, the frame receiver, the response buffer and MDOUT (sections 10.1 to 10.3). -/

namespace Sys2Proof.Machine

/-- The link between transfers, with MSEL high (R170). -/
def Link.between : Link where
  selected := false
  reception := .taking
  receiver := []
  bits := []
  response := []

/-- MSEL falls: a transfer starts with an empty receiver (R170). -/
def Link.opened : Link := { Link.between with selected := true }

/-- The frame can be the request frame of the present transfer: with MSEL high it comes in a transfer that starts; in a transfer
whose request frame is not complete, it goes on from the bytes and bits received (R170, R171; log 5). -/
def Link.takes (l : Link) (frame : List Byte) : Bool :=
  !l.selected ||
    match l.reception with
    | .taking => !frameComplete l.receiver && l.receiver.isPrefixOf frame && l.bits.isPrefixOf (bitsOf (frame.getD l.receiver.length 0))
    | .skipping => true
    | .abandoned => false

/-- The frame of a command is in the receiver and its response frame in the response buffer (R174). -/
def State.respond (s : State) (request : List Byte) (r : Reply) : State :=
  { s with link := { Link.opened with receiver := request, response := r.frame } }

/-- A request frame is clocked in to its last bit. It is executed when the link takes it, and the response is formed (R174). While
RESET is asserted no byte is taken (R175). A frame behind the request frame of its transfer, or in a transfer that RESET
abandoned, is ignored: its bytes only shift out what is left of the response (R170, R175). -/
def State.receive (s : State) (frame : List Byte) (done : State × Reply) : State :=
  if s.resetAsserted then s
  else if s.link.takes frame then done.1.respond frame done.2
  else { s with link := { s.link with response := s.link.response.drop frame.length } }

/-- The byte on MDOUT now: FFH while RESET is asserted (R175; log 16), high impedance (none) while MSEL is high, the next byte of
the response frame, and FFH in every other byte (R170, R174). -/
def State.mdout (s : State) : Option Byte :=
  if s.resetAsserted then some 0xFF#8 else if s.link.selected then some (s.link.response.headD 0xFF#8) else none

/-- The bit on MDOUT now, the most significant of its byte first (R170). -/
def State.mdoutBit (s : State) : Option Bool := s.mdout.map fun b => b.getLsbD (7 - s.link.bits.length)

/-- The link after a whole byte has been clocked that completes no request frame. While RESET is asserted no byte is taken, and an
abandoned transfer gives none; a byte that began while RESET was asserted is discarded (R175). Behind a complete request frame the
byte is ignored, and the response moves on (R170, R174). -/
def Link.byteClocked (l : Link) (asserted : Bool) (b : Byte) : Link :=
  if asserted then { l with bits := [] }
  else
    match l.reception with
    | .abandoned => { l with bits := [] }
    | .skipping => { l with bits := [], reception := .taking }
    | .taking =>
      if frameComplete l.receiver then { l with bits := [], response := l.response.tail }
      else { l with bits := [], receiver := l.receiver ++ [b] }

/-- The request frame that a byte completes, if it does (R171). -/
def Link.completedBy (l : Link) (asserted : Bool) (b : Byte) : Option (List Byte) :=
  if !asserted && l.reception == .taking && !frameComplete l.receiver && frameComplete (l.receiver ++ [b]) then
    some (l.receiver ++ [b])
  else none

/-- The link when RESET is asserted (R169, R175): the receiver and the response buffer are emptied, and a transfer in progress is
abandoned. -/
def Link.reset (l : Link) : Link :=
  { Link.between with selected := l.selected, reception := if l.selected then .abandoned else .taking }

/-- The link when RESET is released (R175): a transfer that began while RESET was asserted counts from its first whole byte after
the release. -/
def Link.released (l : Link) : Link :=
  { l with reception := if l.reception = .taking ∧ l.bits ≠ [] then .skipping else l.reception }

end Sys2Proof.Machine
end

