-- ==== Sys2Proof/Machine/Lines.lean ====
section
/-! DEFINITION. The steps of the dedicated lines: FLIP_EDGE (R72) and RESET (R169). -/

namespace Sys2Proof.Machine

/-- A rising edge on FLIP reaches one group: a flip request when it is pin-driven (R72). -/
def State.edgeReaches (s : State) (g : GroupIx) : State := if s.groups[g].pinDriven then (s.requestFlip g .pin).1 else s

/-- A rising edge on FLIP (R72): in RUN every pin-driven group handles it; elsewhere it is ignored. R74 orders the FLIP_MISSED
records by group. That all records of one edge, FLIP_DONE among them, come in ascending group order is a DESIGN CHOICE (log 25). -/
def State.takeEdge (s : State) : State := if s.mode = .run then allGroups.foldl State.edgeReaches s else s

/-- FLIP_EDGE (R72). While RESET is asserted the edge has no effect (R169). -/
def execFlipEdge (s : State) : Result := .next (s.unlessReset s.takeEdge)

/-- The RESET input is asserted (R169): every block takes its reset values, and RESET is low until it is released. An input that is
low already stays low, and the link goes on counting the bits of a transfer that began meanwhile (R175). The level of MSEL is an
input's, and the commands and signals that wait are not the part's: they stay (log 16). -/
def State.assertReset (s : State) : State :=
  { State.reset with
    resetAsserted := true
    link := if s.resetAsserted then { s.link with receiver := [], response := [] } else s.link.reset
    pins := s.pins
    pending := s.pending }

/-- The RESET input is released (R169, R175): the part goes on from its reset values. An input that is high already stays high. -/
def State.releaseReset (s : State) : State :=
  if s.resetAsserted then { s with resetAsserted := false, link := s.link.released } else s

/-- RESET (R169): the input is asserted, if it is not yet, and released. -/
def execReset (s : State) : Result := .next s.assertReset.releaseReset

end Sys2Proof.Machine
end

