-- ==== Sys2Proof/Machine/Management.lean ====
section
/-! DEFINITION. The steps of the management link: TRANSFER_END, BAD_FRAME and the sixteen management commands (Chapter 10). -/

namespace Sys2Proof.Machine

/-- TRANSFER_END (R170, R175): MSEL rises; the frame receiver, the byte being clocked and the response buffer are emptied, and an
incomplete request frame executes nothing. -/
def execTransferEnd (_unexecuted : List Byte) (s : State) : Result := .next { s with link := Link.between }

/-- BAD_FRAME (R173): a complete frame that is refused executes nothing and is answered BAD_FRAME. Any other byte string is not
this event, and nothing happens (log 6). -/
def execBadFrame (frame : List Byte) (s : State) : Result :=
  .next (if frameComplete frame && frameRefused frame then s.receive frame (s, { status := .badFrame, data := [] }) else s)

/-- STATUS (R178). -/
def execStatus (s : State) : Result := .next (s.receive (frameOf .status) (s, .done s.statusLayout))

/-! ### The region table -/

/-- REGION_WRITE on the table: the mode, the index, the fields in order, and the record (R4, R5, R177, R180). -/
def State.regionWrite (s : State) (params : List Byte) : State × Reply :=
  if s.mode ≠ .bypass then (s, .wrongMode s.mode)
  else
    match regionOf (params.getD 0 0) with
    | none => (s, .badArgument 0)
    | some ix =>
      match firstFailingField (params.drop 2) with
      | some number => (s, .badArgument number)
      | none => ({ s with regions := s.regions.set ix (regionOfLayout (params.drop 2)) }, .done [])

/-- REGION_WRITE (R4). -/
def execRegionWrite (params : Vector Byte 44) (s : State) : Result :=
  .next (s.receive (frameOf (.regionWrite params)) (s.regionWrite params.toList))

/-- REGION_READ (R6). -/
def execRegionRead (index fill : Byte) (s : State) : Result :=
  .next (s.receive (frameOf (.regionRead index fill))
    (s, match regionOf index with
      | none => .badArgument 1
      | some ix => .done s.regions[ix].layout))

/-! ### Groups -/

/-- GROUP_SET on the group records (R93, R177). -/
def State.groupSet (s : State) (group pin : Byte) : State × Reply :=
  match groupOf group with
  | none => (s, .badArgument 1)
  | some g =>
    match yesNoOf pin with
    | none => (s, .badArgument 2)
    | some x => (s.setGroup g { s.groups[g] with pinDriven := x }, .done [])

/-- GROUP_SET (R93). -/
def execGroupSet (group pin : Byte) (s : State) : Result :=
  .next (s.receive (frameOf (.groupSet group pin)) (s.groupSet group pin))

/-- GROUP_READ (R94). -/
def execGroupRead (group fill : Byte) (s : State) : Result :=
  .next (s.receive (frameOf (.groupRead group fill))
    (s, match groupOf group with
      | none => .badArgument 1
      | some g => .done s.groups[g].layout))

/-- The response of FLIP (R71, R181). -/
def flipReply (epoch : Half) : FlipOutcome → Reply
  | .taken => .done ([0, 0] ++ natBytes 2 epoch.toNat)
  | .pending => .done ([1, 0] ++ natBytes 2 epoch.toNat)
  | .refused found => .refusedState found.code

/-- FLIP on the flip controller (R71, R177). -/
def State.flipCommand (s : State) (group : Byte) : State × Reply :=
  match groupOf group with
  | none => (s, .badArgument 1)
  | some g =>
    if s.mode ≠ .run then (s, .wrongMode s.mode)
    else
      let done := s.requestFlip g .command
      (done.1, flipReply done.1.groups[g].epoch done.2)

/-- FLIP (R71). -/
def execFlip (group fill : Byte) (s : State) : Result :=
  .next (s.receive (frameOf (.flip group fill)) (s.flipCommand group))

/-- A RELEASE of a HELD group (R85, R86, R88). DESIGN CHOICE (log 27; unsafe): it does not wait for words of an earlier live read of
the held bank that stand offered, though R109 says that no live read meets a scrub write. -/
def State.releaseHeld (s : State) (g : GroupIx) : State × Reply :=
  let r := s.groups[g]
  let jobs := releaseJobs s.regions g r.active.other
  if jobs.isEmpty then (s.enterReady g, .done [0, 0])
  else ((s.setGroup g { r with state := .cleaning }).appendJobs jobs, .done [BitVec.ofNat 8 jobs.length, 0])

/-- RELEASE on the flip controller (R85, R177). -/
def State.releaseCommand (s : State) (group : Byte) : State × Reply :=
  match groupOf group with
  | none => (s, .badArgument 1)
  | some g =>
    if s.mode ≠ .run then (s, .wrongMode s.mode)
    else if s.groups[g].state = .held then s.releaseHeld g
    else (s, .refusedState s.groups[g].state.code)

/-- RELEASE (R85). -/
def execRelease (group fill : Byte) (s : State) : Result :=
  .next (s.receive (frameOf (.release group fill)) (s.releaseCommand group))

/-! ### Modes -/

/-- An ARM whose validation passes (R15, R20, R159). DESIGN CHOICE (log 27; unsafe): the startup jobs do not wait for words of a live
read taken before the DISARM that stand offered (R58, R109). -/
def State.armPassed (s : State) (option : ArmOption) : State :=
  let shield := State.recheckOffered
    { s with mode := .starting, armOption := some option, regions := s.regions.map fun r => { r with lastClamp := none } }
  (if option = .scrubAll then shield.appendJobs (startupJobs shield.regions) else shield).judgeStarting

/-- The startup jobs that an ARM appends (R159). -/
def jobsAppended (s : State) (option : ArmOption) : Nat := if option = .scrubAll then (startupJobs s.regions).length else 0

/-- ARM on the mode controller (R158, R159, R20, R177). -/
def State.armCommand (s : State) (code : Byte) : State × Reply :=
  match armOptionOf code with
  | none => (s, .badArgument 1)
  | some option =>
    if s.mode ≠ .bypass then (s, .wrongMode s.mode)
    else
      match validate s.regions with
      | some (ix, reason) => (s, { status := .armFailed, data := [BitVec.ofNat 8 ix.val, reason.code] })
      | none =>
        let armed := s.armPassed option
        (armed, .done [option.code, armed.mode.code, BitVec.ofNat 8 (jobsAppended s option), 0])

/-- ARM (R158). -/
def execArm (option fill : Byte) (s : State) : Result :=
  .next (s.receive (frameOf (.arm option fill)) (s.armCommand option))

/-- A DISARM taken in STARTING (R163). -/
def State.disarmStarting (s : State) : State :=
  State.raise { s.discardJobs with mode := .bypass, armOption := none } { kind := .disarmed }

/-- A DISARM taken in RUN (R164). -/
def State.disarmRun (s : State) : State := State.judgeStopping { s.discardJobs with mode := .stopping }

/-- DISARM on the mode controller (R163, R164). -/
def State.disarmCommand (s : State) : State × Reply :=
  match s.mode with
  | .bypass => (s, .wrongMode .bypass)
  | .stopping => (s, .wrongMode .stopping)
  | .starting => (s.disarmStarting, .done [s.disarmStarting.mode.code, 0])
  | .run => (s.disarmRun, .done [s.disarmRun.mode.code, 0])

/-- DISARM (R163, R164). -/
def execDisarm (s : State) : Result :=
  .next (s.receive (frameOf .disarm) s.disarmCommand)

/-! ### Events and attention -/

/-- EVENT_TAKE on the event block (R150). -/
def State.eventTake (s : State) : State × Reply :=
  match s.events.queue with
  | [] => (s, { status := .empty, data := [] })
  | e :: rest =>
    ({ s with events := EventBlock.sync { s.events with queue := rest } }, .done (e.layout ++ [BitVec.ofNat 8 rest.length, 0]))

/-- EVENT_TAKE (R150). -/
def execEventTake (s : State) : Result :=
  .next (s.receive (frameOf .eventTake) s.eventTake)

/-- The attention mask that two bytes carry; bits 12-15 are ignored (R181). -/
def maskOf (high low : Byte) : Half := (high ++ low) &&& 0x0FFF#16

/-- ATTN_MASK_SET (R152, R153, R181). -/
def execAttnMaskSet (high low : Byte) (s : State) : Result :=
  .next (s.receive (frameOf (.attnMaskSet high low))
    ({ s with events := EventBlock.sync { s.events with mask := maskOf high low } }, .done []))

/-- ATTN_MASK_READ (R152, R181). -/
def execAttnMaskRead (s : State) : Result :=
  .next (s.receive (frameOf .attnMaskRead) (s, .done (natBytes 2 s.events.mask.toNat)))

/-! ### The memory port and the engines -/

/-- PORT_SET on the memory port (R140, R177). -/
def State.portSet (s : State) (timeout share : Byte) : State × Reply :=
  if timeout = 0 then (s, .badArgument 1)
  else if share.toNat < 2 ∨ 16 < share.toNat then (s, .badArgument 2)
  else ({ s with port := { s.port with timeout := timeout.toNat, share := share.toNat } }, .done [timeout, share])

/-- PORT_SET (R140). -/
def execPortSet (timeout share : Byte) (s : State) : Result :=
  .next (s.receive (frameOf (.portSet timeout share)) (s.portSet timeout share))

/-- PORT_RECOVER on the memory port (R138). -/
def State.portRecover (s : State) (now : Nat) : State × Reply :=
  if s.port.state = .failed then
    let number := s.port.probeNumber + 1
    (State.sendDown
      { s with port := { s.port with state := .recovering (now + s.port.timeout), probeNumber := number } } (.probe number), .done [])
  else (s, .refusedState s.port.state.code)

/-- PORT_RECOVER (R138). -/
def execPortRecover (now : Nat) (s : State) : Result :=
  .next (s.receive (frameOf (.portRecover now)) (s.portRecover now))

/-- SCRUB_STATUS (R110). -/
def execScrubStatus (s : State) : Result := .next (s.receive (frameOf .scrubStatus) (s, .done s.scrub.layout))

/-- The response of QUEUE_PEEK (R65, R177). -/
def peekReply (queue : List MergeEntry) (position : Byte) : Reply :=
  if 15 < position.toNat then .badArgument 1
  else
    match queue[position.toNat]? with
    | none => { status := .empty, data := [] }
    | some e => .done e.layout

/-- QUEUE_PEEK (R65). -/
def execQueuePeek (position fill : Byte) (s : State) : Result :=
  .next (s.receive (frameOf (.queuePeek position fill)) (s, peekReply s.merge.queue position))

end Sys2Proof.Machine
end

