-- ==== Sys2Proof/Machine/MemPort.lean ====
section
/-! DEFINITION. The steps of the memory port: GRANT, RESPONSE_TAKEN, RESPONSE_TIMEOUT, PROBE_ANSWERED and PROBE_TIMEOUT
(Chapter 7). -/

namespace Sys2Proof.Machine

/-- The arbiter may grant: the port is UP and fewer than 8 requests are outstanding (R128, R131). -/
def State.mayGrant (s : State) : Bool := s.port.state = .up && decide (s.port.outstanding.length < Config.outstandingDepth)

/-- One offered request is granted; when none may be, nothing changes (R131). -/
def State.makeGrant (s : State) (now : Nat) : State :=
  if s.mayGrant then
    match s.winner with
    | none => s
    | some o => (s.grantOffer o now).judgeStopping
  else s

/-- GRANT (R131). While RESET is asserted the memory link sends no request (R169). -/
def execGrant (now : Nat) (s : State) : Result := .next (s.unlessReset (s.makeGrant now))

/-- A READ or WRITE response answers the oldest request (R129). The next request, now the oldest, times out if its deadline has
passed and its own response has not arrived by then (R135). -/
def State.takeAnswer (s : State) (m : MemResponse) (now : Arrival) : State :=
  match s.port.outstanding with
  | [] => s
  | o :: rest =>
    let handed := (State.handResponse { s with port := { s.port with outstanding := rest } } o m).judgeStopping
    if handed.oldestLapsed now.moment && !now.nextArrived then handed.timeOut else handed

/-- A response arrives (R129): it is taken while the port is UP and a request is outstanding. A PROBE answers only the current
probe (log 20). Every other response is discarded. -/
def State.takeResponse (s : State) (m : MemResponse) (now : Arrival) : State :=
  match m with
  | .probe number => s.takeProbe number
  | .read _ _ => if s.port.state = .up then s.takeAnswer m now else s
  | .write _ => if s.port.state = .up then s.takeAnswer m now else s

/-- RESPONSE_TAKEN (R129). While RESET is asserted the memory link discards responses (R169). -/
def execResponseTaken (m : MemResponse) (now : Arrival) (s : State) : Result := .next (s.unlessReset (s.takeResponse m now))

/-- The deadline of the oldest request passes (R135, R136). A port that is not UP, or whose list is empty, has no deadline to
watch. -/
def State.lapse (s : State) : State := if s.port.state = .up && !s.port.outstanding.isEmpty then s.timeOut else s

/-- RESPONSE_TIMEOUT (R135). -/
def execResponseTimeout (s : State) : Result := .next (s.unlessReset s.lapse)

/-- PROBE_ANSWERED (R139). -/
def execProbeAnswered (number : Byte) (s : State) : Result := .next (s.unlessReset (s.takeProbe number))

/-- The deadline of the probe passes: a RECOVERING port enters FAILED with cause PROBE (R139). No other port has a probe
outstanding. -/
def State.lapseProbe (s : State) : State :=
  match s.port.state with
  | .recovering _ => (s.enterFailed none).judgeStopping
  | .up => s
  | .failed => s

/-- PROBE_TIMEOUT (R139). -/
def execProbeTimeout (s : State) : Result := .next (s.unlessReset s.lapseProbe)

end Sys2Proof.Machine
end

