-- ==== Sys2Proof/Machine/Dispatch.lean ====
section
/-! DEFINITION. The effect of every command on everything but the queue of commands: one arm per row of opcode_table.json. -/

namespace Sys2Proof.Machine

/-- The effect of a command. -/
def exec (i : Instr) (s : State) : Host.Outcome State Fault Refusal :=
  match i with
  | .hostRequest arriving => Sys2Proof.Machine.execHostRequest arriving s
  | .contribution => Sys2Proof.Machine.execContribution s
  | .stalledReadPresented => Sys2Proof.Machine.execStalledReadPresented s
  | .grant now => Sys2Proof.Machine.execGrant now s
  | .responseTaken response now => Sys2Proof.Machine.execResponseTaken response now s
  | .responseTimeout => Sys2Proof.Machine.execResponseTimeout s
  | .probeAnswered number => Sys2Proof.Machine.execProbeAnswered number s
  | .probeTimeout => Sys2Proof.Machine.execProbeTimeout s
  | .flipEdge => Sys2Proof.Machine.execFlipEdge s
  | .reset => Sys2Proof.Machine.execReset s
  | .transferEnd unexecuted => Sys2Proof.Machine.execTransferEnd unexecuted s
  | .badFrame frame => Sys2Proof.Machine.execBadFrame frame s
  | .status => Sys2Proof.Machine.execStatus s
  | .regionWrite params => Sys2Proof.Machine.execRegionWrite params s
  | .regionRead index fill => Sys2Proof.Machine.execRegionRead index fill s
  | .groupSet group pin => Sys2Proof.Machine.execGroupSet group pin s
  | .groupRead group fill => Sys2Proof.Machine.execGroupRead group fill s
  | .arm option fill => Sys2Proof.Machine.execArm option fill s
  | .disarm => Sys2Proof.Machine.execDisarm s
  | .flip group fill => Sys2Proof.Machine.execFlip group fill s
  | .release group fill => Sys2Proof.Machine.execRelease group fill s
  | .eventTake => Sys2Proof.Machine.execEventTake s
  | .attnMaskSet high low => Sys2Proof.Machine.execAttnMaskSet high low s
  | .attnMaskRead => Sys2Proof.Machine.execAttnMaskRead s
  | .portSet timeout share => Sys2Proof.Machine.execPortSet timeout share s
  | .portRecover now => Sys2Proof.Machine.execPortRecover now s
  | .scrubStatus => Sys2Proof.Machine.execScrubStatus s
  | .queuePeek position fill => Sys2Proof.Machine.execQueuePeek position fill s

end Sys2Proof.Machine
end

