-- ==== Sys2Proof/Machine/Pins.lean ====
section
/-! DEFINITION. What one signal on the part's lines does: the edges of MSEL and one bit on MDIN (R170 to R175), and the levels of
RESET (R169). -/

namespace Sys2Proof.Machine

/-- One bit is clocked in (R170). With MSEL high it is ignored. The eighth bit makes a byte, and the byte that completes a request
frame runs its command (R173, R174) at the moment of the bit. -/
def State.clockBit (s : State) (value : Bool) (now : Nat) : Result :=
  if !s.link.selected then .next s
  else if s.link.bits.length < 7 then .next { s with link := { s.link with bits := s.link.bits ++ [value] } }
  else
    let b := byteOf (s.link.bits ++ [value])
    match s.link.completedBy s.resetAsserted b with
    | some frame => exec (commandOfFrame now frame) s
    | none => .next { s with link := s.link.byteClocked s.resetAsserted b }

/-- One signal is sampled. MSEL falling starts a transfer, and MSEL rising is TRANSFER_END (R170). A line that keeps its level gives
no signal (log 6). -/
def State.sample (s : State) (x : PinSignal) : Result :=
  match x with
  | .select => .next (if s.link.selected then s else { s with link := Link.opened })
  | .bit value now => s.clockBit value now
  | .deselect => exec (.transferEnd []) s
  | .assertReset => .next s.assertReset
  | .releaseReset => .next s.releaseReset

end Sys2Proof.Machine
end

