-- ==== Sys2Proof/Safety.lean ====
section
/-! DEFINITION. The laws of the part, in the terms that the statements use: what every state a run reaches satisfies. -/

namespace Sys2Proof.Safety

open Sys2Proof.Machine

/-- The event queue holds at most 32 records, and ATTN is asserted exactly when it holds one of an unmasked kind (R143, R153). -/
def EventLaw (s : State) : Prop :=
  s.events.queue.length ≤ 32 ∧
    (s.events.attn = true ↔ ∃ e ∈ s.events.queue, s.events.mask.getLsbD e.report.kind.code = false)

/-- The serials of the records held rise by 1 from each to the next, and the counter is one more than the youngest (R146). -/
def SerialLaw (s : State) : Prop :=
  ∀ i (h : i < s.events.queue.length),
    (s.events.queue[i]).serial + BitVec.ofNat 16 (s.events.queue.length - i) = s.events.serial

/-- No list passes its capacity: 16 merge entries (R39), 4 held reads (R59), 8 outstanding requests (R128). -/
def CapacityLaw (s : State) : Prop :=
  s.merge.queue.length ≤ 16 ∧ s.merge.hold.length ≤ 4 ∧ s.port.outstanding.length ≤ 8

/-- Every group is OFF in BYPASS and STARTING, and none is OFF in RUN and STOPPING (R67). A flip is pending in a READY or CLEANING
group only (R73, R85). -/
def ModeLaw (s : State) : Prop :=
  ∀ g : GroupIx, (s.groups[g].state = .off ↔ s.mode = .bypass ∨ s.mode = .starting) ∧
    (s.groups[g].flipPending = true → s.groups[g].state = .ready ∨ s.groups[g].state = .cleaning)

/-- The intake holds a LIVE request: an open LIVE write, or a stalled open LIVE read (R123). -/
def HoldsLive (i : Intake) : Prop := (∃ w stalled, i = .liveWrite w stalled) ∨ ∃ r, i = .liveRead r

/-- Nothing is left of the merge path: the merge queue and the hold list are empty and the intake holds no LIVE request (R166). -/
def RunDown (s : State) : Prop := s.merge.queue = [] ∧ s.merge.hold = [] ∧ ¬HoldsLive s.host.intake

/-- In BYPASS and STARTING nothing is left of the merge path (R46). -/
def RundownLaw (s : State) : Prop := s.mode = .bypass ∨ s.mode = .starting → RunDown s

/-- The number of queue entries of a group that target the bank it left, the one that is not active (R79). -/
def leftBehind (s : State) (g : GroupIx) : Nat :=
  s.merge.queue.countP fun e => e.group = some g && e.bank ≠ s.groups[g].active

/-- The drain count of a DRAINING group is the number of its entries that target the bank it left, and is not 0; in every other
state the drain count is 0 (R66, R79). -/
def DrainLaw (s : State) : Prop :=
  ∀ g : GroupIx,
    if s.groups[g].state = .draining then
      s.groups[g].drainCount = leftBehind s g ∧ 0 < s.groups[g].drainCount
    else s.groups[g].drainCount = 0

/-- No entry targets the non-active bank of a group that is not DRAINING (R81). -/
def BankLaw (s : State) : Prop :=
  ∀ g : GroupIx, s.groups[g].state ≠ .draining → leftBehind s g = 0

/-- Entries stand in acceptance order; of two entries for one word the older is not WAITING-and-unpinned (R42), and the younger is
WAITING (R47). Each outstanding merge request is that of one entry of the queue, READING for a read and WRITING with its write-back
issued for a write (R48, R49, R53), and no entry has two. -/
def QueueLaw (s : State) : Prop :=
  s.merge.queue.Pairwise (fun older younger =>
    older.stamp < younger.stamp ∧ (older.addr = younger.addr →
      (older.state ≠ .waiting ∨ older.pinned = true) ∧ younger.state = .waiting)) ∧
  (∀ e ∈ s.merge.queue, e.stamp < s.merge.nextStamp) ∧
  s.port.outstanding.Pairwise (fun x y => ∀ stamp,
    (x.owner = .mergeRead stamp → y.owner ≠ .mergeRead stamp) ∧ (x.owner = .mergeWrite stamp → y.owner ≠ .mergeWrite stamp)) ∧
  ∀ o ∈ s.port.outstanding, ∀ stamp,
    (o.owner = .mergeRead stamp → ∃ e ∈ s.merge.queue, e.stamp = stamp ∧ e.state = .reading) ∧
    (o.owner = .mergeWrite stamp → ∃ e ∈ s.merge.queue, e.stamp = stamp ∧ ∃ data result, e.state = .writing data result true)

/-- The pass-through writes offered are at most one, the word at the position of the PLAIN write in the intake (R119, R130), and
outside BYPASS it lies in no bank of an enabled region (R14, R15). -/
def ShieldLaw (s : State) : Prop :=
  (s.port.offered.filter fun x => x.write.isSome).length ≤ 1 ∧
  ∀ x ∈ s.port.offered, x.write.isSome = true →
    (∃ w, s.host.intake = .plainWrite w ∧ x.tag = w.tag ∧ x.index = w.position ∧
      x.addr = w.start + BitVec.ofNat 32 (8 * w.position)) ∧
    (s.mode ≠ .bypass → inAnyBank s.regions x.addr = false)

/-- A port that is not UP has no request outstanding, and a FAILED port has no pass-through word standing offered (R133, R137). -/
def PortLaw (s : State) : Prop :=
  (s.port.state ≠ .up → s.port.outstanding = []) ∧ (s.port.state = .failed → s.port.offered = [])

/-- Each tag has at most one transaction record (R114). -/
def RecordLaw (s : State) : Prop := (s.host.records.map TxRecord.tag).Nodup

/-- No (region, bank) pair appears twice in the scrub job list; the list is empty in BYPASS and STOPPING; in RUN each job is for
the non-active bank of a CLEANING group (R86, R95, R157). -/
def JobLaw (s : State) : Prop :=
  s.scrub.jobs.Pairwise (fun x y => ¬(x.region = y.region ∧ x.bank = y.bank)) ∧
  (s.mode = .bypass ∨ s.mode = .stopping → s.scrub.jobs = []) ∧
  (s.mode = .run → ∀ j ∈ s.scrub.jobs, ∃ g, s.regions[j.region].group = some g ∧ s.groups[g].state = .cleaning ∧
    j.bank = s.groups[g].active.other)

/-- Between transfers the frame receiver and the response buffer are empty. A byte being clocked has fewer than eight bits. In a
transfer of which nothing is taken both are empty, and a response stands only behind a complete request frame (R170, R174, R175). -/
def LinkLaw (s : State) : Prop :=
  (s.link.selected = false → s.link = { selected := false, reception := .taking, receiver := [], bits := [], response := [] }) ∧
    s.link.bits.length < 8 ∧
    (s.link.reception ≠ .taking → s.link.receiver = [] ∧ s.link.response = []) ∧
    (s.link.response ≠ [] → frameComplete s.link.receiver = true)

/-- While RESET is asserted every block of the part is at its reset values, and the link holds no byte (R169, R175). -/
def ResetLaw (s : State) : Prop :=
  s.resetAsserted = true →
    s = { State.reset with resetAsserted := true, link := s.link, pins := s.pins, pending := s.pending } ∧
      s.link.receiver = [] ∧ s.link.response = []

/-! ### Terms of the statements about single commands -/

/-- Every block of the part but the management link is at its reset values (R169 and the rules it gathers). The stamp counter and
the logs are the model's own (logs 7, 8). -/
def BlocksReset (t : State) : Prop :=
  t.mode = .bypass ∧ t.armOption = none ∧ (∀ g : GroupIx, t.remembered[g] = .a) ∧
    (∀ ix : RegionIx, t.regions[ix] = {
      enabled := false, liveBase := 0, size := 0, group := none, snapBase := none, bankABase := 0, bankBBase := none
      operation := .wrapAdd, width := .w8, pattern := .identity, preset := none, clampReport := .off, threshold := none
      lastClamp := none }) ∧
    t.host = { channel := [], intake := .idle, records := [] } ∧
    t.merge = { queue := [], hold := [], nextStamp := 0 } ∧
    (∀ g : GroupIx, t.groups[g] = {
      state := .off, active := .a, epoch := 0, flipPending := false, drainCount := 0, pinDriven := false }) ∧
    t.scrub = { engine := .idle, jobs := [] } ∧
    t.port = { state := .up, outstanding := [], offered := [], starvation := 0, timeout := 32, share := 4, probeNumber := 0 } ∧
    t.events = { queue := [], serial := 0, loss := false, mask := 0, attn := false } ∧
    t.sent = { host := [], memory := [] }

/-- The request frame of a management command is executed when it is complete: RESET is not asserted, and the link takes it as the
request frame of its transfer (R170, R175). -/
def Listens (s : State) (c : Instr) : Prop := s.resetAsserted = false ∧ s.link.takes (frameOf c) = true

/-- The management link after a command: its frame in the receiver, and the response frame of a status code and data (R174). -/
def linkAfter (c : Instr) (status : Byte) (data : List Byte) : Link where
  selected := true
  reception := .taking
  receiver := frameOf c
  bits := []
  response := sealFrame status data

/-- The command, when its frame is executed in `s`, is answered with this status and data and leaves the part as in `t` (R174). -/
def Answered (c : Instr) (s t : State) (status : Byte) (data : List Byte) : Prop :=
  Listens s c → exec c s = .next { t with link := linkAfter c status data }

/-! #### Frames (R171 to R173) -/

/-- The command code and the parameter bytes of each management command, by the command-code list and the parameter layouts (R180,
R181). -/
def FrameTable : Prop :=
  (frameParts .status = some (0x01#8, []) ∧ (∀ params, frameParts (.regionWrite params) = some (0x02#8, params.toList)) ∧
      frameParts .disarm = some (0x07#8, []) ∧ frameParts .eventTake = some (0x0A#8, []) ∧
      frameParts .attnMaskRead = some (0x0C#8, []) ∧ (∀ now, frameParts (.portRecover now) = some (0x0E#8, [])) ∧
      frameParts .scrubStatus = some (0x0F#8, [])) ∧
    ∀ x y : Byte, frameParts (.regionRead x y) = some (0x03#8, [x, y]) ∧ frameParts (.groupSet x y) = some (0x04#8, [x, y]) ∧
      frameParts (.groupRead x y) = some (0x05#8, [x, y]) ∧ frameParts (.arm x y) = some (0x06#8, [x, y]) ∧
      frameParts (.flip x y) = some (0x08#8, [x, y]) ∧ frameParts (.release x y) = some (0x09#8, [x, y]) ∧
      frameParts (.attnMaskSet x y) = some (0x0B#8, [x, y]) ∧ frameParts (.portSet x y) = some (0x0D#8, [x, y]) ∧
      frameParts (.queuePeek x y) = some (0x10#8, [x, y])

/-- Frames: a first byte, the number of pairs, the pairs, and the check value (R171). The check value starts at 00H and goes through
the bits of each byte, the most significant first: the register is shifted one place, and 07H is added without carry when the bit
shifted out differs from the message bit (R172). A byte is made of its bits in that order (R170). A frame is complete with its check
value, or at a length byte above 30; a complete frame is refused for that length byte, a wrong check value, a code that is not
listed, or a length that is not its command's (R171, R173). -/
def FrameRules : Prop :=
  (crc8 [] = 0 ∧ ∀ (message : List Byte) (b : Byte), crc8 (message ++ [b]) = [7, 6, 5, 4, 3, 2, 1, 0].foldl
    (fun (r : Byte) (i : Nat) => if r.getLsbD 7 = b.getLsbD i then r <<< 1 else (r <<< 1) ^^^ 0x07#8) (crc8 message)) ∧
  (∀ bits : List Bool, bits.length = 8 → ∀ i, i < 8 → bits[i]? = some ((byteOf bits).getLsbD (7 - i))) ∧
  (∀ (first : Byte) (body : List Byte), sealFrame first body =
    first :: BitVec.ofNat 8 (body.length / 2) :: body ++ [crc8 (first :: BitVec.ofNat 8 (body.length / 2) :: body)]) ∧
  (∀ c code params, frameParts c = some (code, params) →
    frameOf c = sealFrame code params ∧ fixedPairs code = some (params.length / 2)) ∧
  (∀ code : Byte, fixedPairs code = none ↔ code = 0 ∨ 16 < code.toNat) ∧
  (∀ frame, frameComplete frame = true ↔ ∃ code n rest, frame = code :: n :: rest ∧
    ((30 < n.toNat ∧ rest = []) ∨ (n.toNat ≤ 30 ∧ rest.length = 2 * n.toNat + 1))) ∧
  ∀ (code n check : Byte) (params : List Byte),
    (frameRefused ((code :: n :: params) ++ [check]) = true ↔
      30 < n.toNat ∨ check ≠ crc8 (code :: n :: params) ∨ fixedPairs code ≠ some n.toNat) ∧
    (30 < n.toNat → frameRefused [code, n] = true)

/-! #### Codes and layouts (R179) -/

/-- The codes of the fields that the link carries: the code table of R179. -/
def CodeTable : Prop :=
  [Mode.bypass, .starting, .run, .stopping].map Mode.code = [0, 1, 2, 3] ∧
    [ArmOption.scrubAll, .keep].map ArmOption.code = [1, 2] ∧
    (PortState.up.code = 0 ∧ PortState.failed.code = 1 ∧ ∀ deadline, (PortState.recovering deadline).code = 2) ∧
    (Intake.idle.code = 0 ∧ (∀ w, (Intake.plainWrite w).code = 1) ∧ (∀ w, (Intake.liveWrite w false).code = 1) ∧
      (∀ w, (Intake.liveWrite w true).code = 2) ∧ ∀ r, (Intake.liveRead r).code = 2) ∧
    [GroupState.off, .ready, .draining, .held, .cleaning].map GroupState.code = [0, 1, 2, 3, 4] ∧
    ((∀ state, (ReportedState.group state).code = state.code) ∧ ReportedState.unchanged.code = 8 ∧
      ReportedState.indeterminate.code = 9) ∧
    [Bank.a, .b].map Bank.code = [0, 1] ∧
    [Operation.wrapAdd, .satAdd, .satSub, .max, .min, .bitSet, .bitClear, .replace].map Operation.code = [0, 1, 2, 3, 4, 5, 6, 7] ∧
    [LaneWidth.w8, .w16, .w32, .w64].map LaneWidth.code = [0, 1, 2, 3] ∧
    [ScrubPattern.identity, .preset].map ScrubPattern.code = [0, 1] ∧
    [ClampReport.off, .once, .each].map ClampReport.code = [0, 1, 2] ∧
    [ArmReason.groupFields, .wrap, .threshold, .pattern, .overlap].map ArmReason.code = [1, 2, 3, 4, 5] ∧
    (EntryState.waiting.code = 0 ∧ EntryState.reading.code = 1 ∧ ∀ data result issued, (EntryState.writing data result issued).code = 2) ∧
    [EngineState.idle, .offering, .issued, .paused].map EngineState.code = [0, 1, 2, 3] ∧
    [EventKind.refused, .clamp, .watch, .flipDone, .flipMissed, .bankReady, .scrubFault, .memFault, .portFailed, .portRecovered,
      .armed, .disarmed].map EventKind.code = [0, 1, 2, 3, 4, 5, 6, 7, 8, 9, 10, 11] ∧
    [Cause.shield, .malformed, .snapWrite, .dupTag, .pin, .command, .readError, .writeError, .timeout, .portDown, .probe, .scrubAll,
      .keep].map Cause.code = [0, 1, 2, 3, 4, 5, 6, 7, 8, 9, 10, 11, 12]

/-- A number in two bytes, most significant byte first (R179). -/
def bytes2 (v : Nat) : List Byte := [BitVec.ofNat 8 (v / 2 ^ 8), BitVec.ofNat 8 v]

/-- A number in four bytes, most significant byte first (R179). -/
def bytes4 (v : Nat) : List Byte :=
  [BitVec.ofNat 8 (v / 2 ^ 24), BitVec.ofNat 8 (v / 2 ^ 16), BitVec.ofNat 8 (v / 2 ^ 8), BitVec.ofNat 8 v]

/-- A number in eight bytes, most significant byte first (R179). -/
def bytes8 (v : Nat) : List Byte := bytes4 (v / 2 ^ 32) ++ bytes4 v

/-- The presence bits of one byte: bit k is set when item k, the first being 0, is present (R179). -/
def presenceBits (items : List Bool) : Byte := BitVec.ofNat 8 ((List.range items.length).map fun k => if items[k]? = some true then 2 ^ k else 0).sum

/-- The 44 bytes of a region record (R179, Region record); an absent field is sent as 00H. -/
def regionBytes (r : Region) : List Byte :=
  [if r.enabled then 1 else 0, BitVec.ofNat 8 ((r.group.map fun g => g.val + 1).getD 0), r.operation.code, r.width.code,
    r.pattern.code, r.clampReport.code,
    presenceBits [r.snapBase.isSome, r.bankBBase.isSome, r.preset.isSome, r.threshold.isSome, r.lastClamp.isSome], 0] ++
  bytes2 r.size ++ bytes4 r.liveBase.toNat ++ bytes4 (r.snapBase.getD 0).toNat ++ bytes4 r.bankABase.toNat ++
  bytes4 (r.bankBBase.getD 0).toNat ++ bytes8 (r.preset.getD 0).toNat ++ bytes8 (r.threshold.getD 0).toNat ++
  bytes2 (r.lastClamp.getD 0).toNat

/-- The 30 bytes of an event record (R179, Event record); an absent field is sent as 00H. -/
def eventBytes (e : EventRecord) : List Byte :=
  [BitVec.ofNat 8 e.report.kind.code,
    presenceBits [e.report.group.isSome, e.report.epoch.isSome, e.report.region.isSome, e.report.address.isSome, e.report.lane.isSome,
      e.report.value.isSome, e.report.count.isSome, e.report.cause.isSome],
    presenceBits [e.report.state.isSome, e.report.bank.isSome, false, false, false, false, false, e.lossBefore]] ++
  bytes2 e.serial.toNat ++
  [BitVec.ofNat 8 ((e.report.group.map fun g => g.val).getD 0), BitVec.ofNat 8 ((e.report.region.map fun ix => ix.val).getD 0),
    BitVec.ofNat 8 (e.report.lane.getD 0), (e.report.cause.map Cause.code).getD 0, (e.report.state.map ReportedState.code).getD 0,
    (e.report.bank.map Bank.code).getD 0, 0] ++
  bytes2 (e.report.epoch.getD 0).toNat ++ bytes4 (e.report.address.getD 0).toNat ++ bytes4 (e.report.count.getD 0) ++
  bytes8 (e.report.value.getD 0).toNat

/-- The number that holds each active lane's operand in its lane's bytes, and 0 in the others (R21, R23, R181). -/
def operandNumber (e : MergeEntry) : Nat :=
  ((List.range e.lanes.length).map fun k =>
    match e.lanes[k]? with
    | some (some a) => a.value * 2 ^ (e.width.bits * k)
    | _ => 0).sum

/-- The word as read, which an entry in WRITING holds (R39, R65). -/
def wordRead (e : MergeEntry) : Option Word64 :=
  match e.state with
  | .writing data _ _ => some data
  | _ => none

/-- The 34 bytes of a merge entry (R179, Merge entry); an absent field is sent as 00H. -/
def entryBytes (e : MergeEntry) : List Byte :=
  [BitVec.ofNat 8 e.region.val, BitVec.ofNat 8 ((e.group.map fun g => g.val).getD 0),
    presenceBits [e.group.isSome, e.epoch.isSome, (wordRead e).isSome], e.bank.code, e.operation.code, e.width.code, e.state.code,
    if e.pinned then 1 else 0, presenceBits (e.lanes.map fun a => a.isSome),
    presenceBits (e.lanes.map fun a => match a with | some x => x.saturated | none => false)] ++
  bytes2 (e.epoch.getD 0).toNat ++ bytes2 e.count ++ bytes4 e.addr.toNat ++ bytes8 ((wordRead e).getD 0).toNat ++
  bytes8 (operandNumber e)

/-- The 22 bytes of SCRUB_STATUS (R179, scrub status) with a list that holds an active job. -/
def scrubBytes (engine : EngineState) (j : ScrubJob) (jobs : List ScrubJob) : List Byte :=
  [engine.code, BitVec.ofNat 8 (jobs.length + 1), presenceBits [true, j.firstFailed.isSome], BitVec.ofNat 8 j.region.val, j.bank.code, 0] ++
  bytes4 j.cursor ++ bytes4 j.size ++ bytes4 j.failed ++ bytes4 (j.firstFailed.getD 0).toNat

/-! #### The region table -/

/-- Field k of the region record layout in `b` fails, for the fields that can fail (R5, R180): the table of R5 over the bytes of
the layout. -/
def fieldFails (b : Vector Byte 42) : Nat → Prop
  | 1 => 1 < b[0].toNat
  | 2 => b[12].toNat % 16 ≠ 0 ∨ b[13] ≠ 0
  | 3 => b[8].toNat * 256 + b[9].toNat = 0 ∨ 4096 < b[8].toNat * 256 + b[9].toNat
  | 4 => 4 < b[1].toNat
  | 5 => b[6].getLsbD 0 = true ∧ (b[16].toNat % 16 ≠ 0 ∨ b[17] ≠ 0)
  | 6 => b[20].toNat % 16 ≠ 0 ∨ b[21] ≠ 0
  | 7 => b[6].getLsbD 1 = true ∧ (b[24].toNat % 16 ≠ 0 ∨ b[25] ≠ 0)
  | 8 => 7 < b[2].toNat
  | 9 => 3 < b[3].toNat
  | 10 => 1 < b[4].toNat
  | 11 => ¬(b[6].getLsbD 2 = true ↔ b[4] = 1)
  | 12 => 2 < b[5].toNat
  | _ => False

/-- The record that the bytes of a layout give (R4, R179, R180): each field from its code or its bytes, the most significant first;
an optional field is absent when its presence bit is 0, whatever its bytes hold; the last clamp epoch is absent. Byte 7 and the
presence bits 4 to 7 of byte 6 carry no field and are ignored. -/
def LayoutGives (b : Vector Byte 42) (r : Region) : Prop :=
  (r.enabled = true ↔ b[0] = 1) ∧ r.group = (if b[1] = 0 then none else some (Fin.ofNat 4 (b[1].toNat - 1))) ∧
    r.operation.code = b[2] ∧ r.width.code = b[3] ∧ r.pattern.code = b[4] ∧ r.clampReport.code = b[5] ∧
    r.size = b[8].toNat * 256 + b[9].toNat ∧ r.liveBase = b[10] ++ b[11] ++ b[12] ++ b[13] ∧
    r.snapBase = (if b[6].getLsbD 0 = true then some (b[14] ++ b[15] ++ b[16] ++ b[17]) else none) ∧
    r.bankABase = b[18] ++ b[19] ++ b[20] ++ b[21] ∧
    r.bankBBase = (if b[6].getLsbD 1 = true then some (b[22] ++ b[23] ++ b[24] ++ b[25]) else none) ∧
    r.preset = (if b[6].getLsbD 2 = true then
      some (b[26] ++ b[27] ++ b[28] ++ b[29] ++ b[30] ++ b[31] ++ b[32] ++ b[33]) else none) ∧
    r.threshold = (if b[6].getLsbD 3 = true then
      some (b[34] ++ b[35] ++ b[36] ++ b[37] ++ b[38] ++ b[39] ++ b[40] ++ b[41]) else none) ∧
    r.lastClamp = none

/-- A record whose fields REGION_WRITE accepts (R5). -/
def Storable (r : Region) : Prop :=
  1 ≤ r.size ∧ r.size ≤ 4096 ∧ r.liveBase.toNat % 4096 = 0 ∧ r.bankABase.toNat % 4096 = 0 ∧
    (∀ a ∈ r.snapBase, a.toNat % 4096 = 0) ∧ (∀ a ∈ r.bankBBase, a.toNat % 4096 = 0) ∧
    (r.preset.isSome = true ↔ r.pattern = .preset)

/-- Byte `b` lies in the range of a region that starts at `base` (R2). -/
def InRange (r : Region) (base : Addr) (b : Nat) : Prop := base.toNat ≤ b ∧ b < base.toNat + r.size * 4096

/-- The bases that a record names: the live view and bank A always, the snapshot view and bank B where present (R2, R19). -/
def namedBases (r : Region) : List Addr := r.liveBase :: r.bankABase :: (r.snapBase.toList ++ r.bankBBase.toList)

/-- The bytes of a lane (R21). -/
def laneBytes : LaneWidth → Nat
  | .w8 => 1
  | .w16 => 2
  | .w32 => 4
  | .w64 => 8

/-- Lane k is full: every byte of it has its mask bit at 1 (R21, R22). -/
abbrev LaneFull (w : LaneWidth) (mask : Byte) (k : Nat) : Prop :=
  ∀ i, i < laneBytes w → mask.getLsbD (laneBytes w * k + i) = true

/-- Lane k is partial: some byte of it has its mask bit at 1, and another at 0 (R21, R22). -/
abbrev LanePartial (w : LaneWidth) (mask : Byte) (k : Nat) : Prop :=
  (∃ i, i < laneBytes w ∧ mask.getLsbD (laneBytes w * k + i) = true) ∧
    ∃ i, i < laneBytes w ∧ mask.getLsbD (laneBytes w * k + i) = false

/-- The largest value of a lane (R18, R21). -/
def largest : LaneWidth → Nat
  | .w8 => 0xFF
  | .w16 => 0xFFFF
  | .w32 => 0xFFFFFFFF
  | .w64 => 0xFFFFFFFFFFFFFFFF

/-- One check of validation fails for a region (R17, R18, R19). A range that would pass FFFF_FFFFH counts as ending there. -/
def CheckFails (regions : Vector Region 16) (ix : RegionIx) : ArmReason → Prop
  | .groupFields =>
    (regions[ix].group ≠ none ∧ (regions[ix].snapBase = none ∨ regions[ix].bankBBase = none)) ∨
      (regions[ix].group = none ∧ (regions[ix].snapBase ≠ none ∨ regions[ix].bankBBase ≠ none))
  | .wrap => ∃ base ∈ namedBases regions[ix], 2 ^ 32 < base.toNat + regions[ix].size * 4096
  | .threshold => ∃ x ∈ regions[ix].threshold, largest regions[ix].width < x.toNat
  | .pattern => regions[ix].operation = .satSub ∧ regions[ix].pattern = .identity
  | .overlap =>
    ¬(namedBases regions[ix]).Pairwise (fun x y => ∀ b, b < 2 ^ 32 → ¬(InRange regions[ix] x b ∧ InRange regions[ix] y b)) ∨
      ∃ other : RegionIx, other ≠ ix ∧ regions[other].enabled = true ∧ ∃ x ∈ namedBases regions[ix],
        ∃ y ∈ namedBases regions[other], ∃ b, b < 2 ^ 32 ∧ InRange regions[ix] x b ∧ InRange regions[other] y b

/-- The enabled regions form a consistent address map (R17, R18, R19). -/
def Consistent (regions : Vector Region 16) : Prop :=
  ∀ ix : RegionIx, regions[ix].enabled = true →
    (regions[ix].group.isSome = regions[ix].snapBase.isSome ∧ regions[ix].group.isSome = regions[ix].bankBBase.isSome) ∧
    (∀ base ∈ namedBases regions[ix], base.toNat + regions[ix].size * 4096 ≤ 2 ^ 32) ∧
    (∀ x ∈ regions[ix].threshold, x.toNat ≤ largest regions[ix].width) ∧
    ¬(regions[ix].operation = .satSub ∧ regions[ix].pattern = .identity) ∧
    (namedBases regions[ix]).Pairwise (fun x y => ∀ b, ¬(InRange regions[ix] x b ∧ InRange regions[ix] y b)) ∧
    ∀ other : RegionIx, other ≠ ix → regions[other].enabled = true →
      ∀ x ∈ namedBases regions[ix], ∀ y ∈ namedBases regions[other], ∀ b, ¬(InRange regions[ix] x b ∧ InRange regions[other] y b)

/-- The number of queue entries of a group that target its active bank. -/
def drainOnFlip (s : State) (g : GroupIx) : Nat :=
  s.merge.queue.countP fun e => e.group = some g && e.bank = s.groups[g].active

/-- A group record after its flip is taken (R76, R79). -/
def flipped (s : State) (g : GroupIx) : Group where
  state := if drainOnFlip s g = 0 then .held else .draining
  active := s.groups[g].active.other
  epoch := s.groups[g].epoch + 1
  flipPending := false
  drainCount := drainOnFlip s g
  pinDriven := s.groups[g].pinDriven

/-- A group record after its flip is taken and the entries it left have gone (R76, R79). -/
def heldAfterFlip (s : State) (g : GroupIx) : Group where
  state := .held
  active := s.groups[g].active.other
  epoch := s.groups[g].epoch + 1
  flipPending := false
  drainCount := 0
  pinDriven := s.groups[g].pinDriven

/-- The intake is part-way through a live write of the group (R75). -/
def PartWay (s : State) (g : GroupIx) : Prop := ∃ w stalled, s.host.intake = .liveWrite w stalled ∧ s.regions[w.region].group = some g

/-- The group has a flip taken by a request: READY, no flip pending, at a cut point (R71, R75). -/
def AtCutPoint (s : State) (g : GroupIx) : Prop := s.groups[g].state = .ready ∧ s.groups[g].flipPending = false ∧ ¬PartWay s g

/-- A request that is accepted without a flip: READY part-way, READY pending, or CLEANING (R71). -/
def WaitsForFlip (s : State) (g : GroupIx) : Prop :=
  (s.groups[g].state = .ready ∧ (s.groups[g].flipPending = true ∨ PartWay s g)) ∨ s.groups[g].state = .cleaning

/-- The event block after records are raised in their order (R148). -/
def raised (b : EventBlock) (rs : List Report) : EventBlock := rs.foldl EventBlock.raise b

/-- A FLIP_DONE record for a flip of the group taken in this state (R80). -/
def doneAtFlip (s : State) (g : GroupIx) : Report :=
  { kind := .flipDone, group := some g, epoch := some s.groups[g].epoch, bank := some s.groups[g].active }

/-- What the completion of a job of region `ix` comes to, with `jobs` behind it and these SCRUB_FAULT records (R104): the claim holds
of the state that it leaves, where `u` is the state with the job gone. In RUN, a CLEANING group with other jobs in the list goes on
CLEANING, and the last job of the group gives READY with BANK_READY (R87). A flip pending in it is then taken at a cut point, with
FLIP_DONE if nothing is left to drain, and stays pending part-way through a live write of the group (R73, R75, R76, R88). In STARTING
the groups are OFF, and an empty list ends STARTING: RUN, every group READY on bank A, and ARMED (R68, R162). -/
def JobCompletes (s u : State) (ix : RegionIx) (jobs : List ScrubJob) (faults : List Report) (claim : State → Prop) : Prop :=
  (∀ g : GroupIx, s.mode = .run → s.regions[ix].group = some g → s.groups[g].state = .cleaning →
    ((∃ x ∈ jobs, s.regions[x.region].group = some g) → claim { u with events := raised s.events faults }) ∧
    ((∀ x ∈ jobs, s.regions[x.region].group ≠ some g) →
      (s.groups[g].flipPending = false ∨ PartWay s g → claim { u with
        groups := s.groups.set g { s.groups[g] with state := .ready }
        events := raised s.events
          (faults ++ [{ kind := .bankReady, group := some g, bank := some s.groups[g].active.other }]) }) ∧
      (s.groups[g].flipPending = true → ¬PartWay s g → claim { u with
        groups := s.groups.set g (flipped s g)
        events := raised s.events
          (faults ++ [{ kind := .bankReady, group := some g, bank := some s.groups[g].active.other }] ++
            if drainOnFlip s g = 0 then [doneAtFlip s g] else []) }))) ∧
  (s.mode = .starting → (∀ g : GroupIx, s.groups[g].state = .off) →
    (jobs ≠ [] → claim { u with events := raised s.events faults }) ∧
    (jobs = [] → s.armOption = some .scrubAll → ∃ t, claim t ∧
      (∀ g : GroupIx, t.groups[g] = { s.groups[g] with state := .ready, active := .a, flipPending := false, drainCount := 0 }) ∧
      t = { u with
        mode := .run, groups := t.groups
        events := raised s.events (faults ++ [{ kind := .armed, cause := some .scrubAll }]) }))

/-- The owner of an outstanding request when the job list is discarded: a scrub write has no job, and every other owner stays (R107;
log 18). -/
def withoutJob : Owner → Owner
  | .scrubWrite _ => .scrubWrite none
  | .mergeRead stamp => .mergeRead stamp
  | .mergeWrite stamp => .mergeWrite stamp
  | .passRead tag index => .passRead tag index
  | .passWrite tag index => .passWrite tag index

/-- What one rising edge on FLIP makes of a group in RUN (R72): its record, and the records raised. -/
def EdgeOutcome (s : State) (g : GroupIx) (after : Group) (reports : List Report) : Prop :=
  (s.groups[g].pinDriven = false → after = s.groups[g] ∧ reports = []) ∧
  (s.groups[g].pinDriven = true → AtCutPoint s g →
    after = flipped s g ∧ reports = if drainOnFlip s g = 0 then [doneAtFlip s g] else []) ∧
  (s.groups[g].pinDriven = true → WaitsForFlip s g → after = { s.groups[g] with flipPending := true } ∧ reports = []) ∧
  (s.groups[g].pinDriven = true → s.groups[g].state = .draining ∨ s.groups[g].state = .held →
    after = s.groups[g] ∧
      reports = [{ kind := .flipMissed, group := some g, state := some (.group s.groups[g].state), cause := some .pin }])

/-- The write-back of an entry stands offered: it is in WRITING and its write-back is not issued (R49). -/
def OffersWriteBack (e : MergeEntry) : Prop := ∃ data result, e.state = .writing data result false

/-- The read of an entry may be offered (R47): it is WAITING, no older entry for its word is in the queue, and no held read that was
taken before it and covers its word is in the hold list. Older and earlier are by the model's stamps (log 7). -/
def MayBeRead (s : State) (e : MergeEntry) : Prop :=
  e.state = .waiting ∧ (∀ x ∈ s.merge.queue, x.stamp < e.stamp → x.addr ≠ e.addr) ∧
    ∀ h ∈ s.merge.hold, h.stamp < e.stamp → ¬(h.first.toNat ≤ e.addr.toNat ∧ e.addr.toNat < h.first.toNat + 8 * h.length)

/-- Neither the merge engine nor the host port offers a request (R130). -/
def NothingOffered (s : State) : Prop := s.port.offered = [] ∧ ∀ e ∈ s.merge.queue, ¬OffersWriteBack e ∧ ¬MayBeRead s e

/-- The members of a list that have a property, in their order. -/
def Selects {α : Type} (p : α → Prop) (l r : List α) : Prop := ∃ q : α → Bool, (∀ x, q x = true ↔ p x) ∧ r = l.filter q

/-- The requests that stand offered, in the arbiter's order (R131, R136 step 4): the write-backs, the oldest first, then the
pass-through words in their order, then the reads of the eligible entries, the oldest first. -/
def OffersInOrder (s : State) (fs : List Failing) : Prop :=
  ∃ back read : List MergeEntry, Selects OffersWriteBack s.merge.queue back ∧ Selects (MayBeRead s) s.merge.queue read ∧
    fs = back.map Failing.writeBack ++ s.port.offered.map Failing.word ++ read.map Failing.mergeRead

/-- The request `r` stands first on the request channel once the one that arrives now is behind those that wait, and an IDLE intake
takes it, with `rest` left on the channel (R111; log 4). If the port is FAILED, nothing stands offered, as R137 leaves it. -/
def Takes (s : State) (arriving : Option HostRequest) (r : HostRequest) (rest : List HostRequest) : Prop :=
  s.resetAsserted = false ∧ s.host.intake = .idle ∧ s.host.channel ++ arriving.toList = r :: rest ∧
    (s.port.state = .failed → NothingOffered s)

/-- The state with these requests left on the request channel. -/
def withChannel (s : State) (rest : List HostRequest) : State := { s with host := { s.host with channel := rest } }

/-- The port is FAILED, and the merge queue, the hold list and the pass-through sequence are empty, as R137 leaves them. -/
def FailedPort (s : State) : Prop :=
  s.port.state = .failed ∧ s.port.offered = [] ∧ s.merge.queue = [] ∧ s.merge.hold = []

/-- The bank that live accesses of a region address at this moment: bank A of an ungrouped region, else the active bank of its
group (R41, R42). -/
def bankNow (s : State) (ix : RegionIx) : Bank :=
  match s.regions[ix].group with
  | none => .a
  | some g => s.groups[g].active

/-- A transfer of `length` words from `first` has a word at the address (R57). -/
abbrev Covers (first : Addr) (length : Nat) (a : Addr) : Prop := first.toNat ≤ a.toNat ∧ a.toNat < first.toNat + 8 * length

/-- The entry that a contribution appends: for the bank its group then has active, with the group's epoch (R39, R41, R42). -/
def appendedEntry (s : State) (ix : RegionIx) (offset : Addr) (word : WriteWord) : MergeEntry :=
  { stamp := s.merge.nextStamp, addr := s.regions[ix].bankBase (bankNow s ix) + offset, region := ix, group := s.regions[ix].group
    bank := bankNow s ix, epoch := s.regions[ix].group.map fun g => s.groups[g].epoch, operation := s.regions[ix].operation
    width := s.regions[ix].width, lanes := contributionLanes s.regions[ix].width word, count := 1, pinned := false
    state := .waiting }

/-- The MEM_FAULT record of an entry (R54). -/
def faultReport (e : MergeEntry) (cause : Cause) (word : ReportedState) : Report :=
  { kind := .memFault, region := some e.region, address := some e.addr, epoch := e.epoch, count := some e.count
    cause := some cause, state := some word }

/-- The MEM_FAULT record of an entry whose read is offered to a FAILED port (R53, R54). -/
def downReport (e : MergeEntry) : Report := faultReport e .portDown .unchanged

/-- The response to a read of `length` words of which every one failed: FAULT with zero words (R122, R137). -/
def readFailed (tag : Tag) (length : Nat) : HostResponse := { tag := tag, status := .fault, data := List.replicate length 0 }

/-- The transaction record of a tag (R114). -/
def HasRecord (s : State) (tag : Tag) (r : TxRecord) : Prop :=
  ∃ before behind, s.host.records = before ++ r :: behind ∧ r.tag = tag ∧ ∀ x ∈ before, x.tag ≠ tag

/-- The entry with a stamp (log 7). -/
def HasEntry (s : State) (stamp : Nat) (e : MergeEntry) : Prop :=
  ∃ older younger, s.merge.queue = older ++ e :: younger ∧ e.stamp = stamp ∧ ∀ x ∈ older, x.stamp ≠ stamp

/-- No entry has the stamp (log 7). -/
def NoEntry (s : State) (stamp : Nat) : Prop := ∀ e ∈ s.merge.queue, e.stamp ≠ stamp

/-- No outstanding request has the tag (R114). -/
def TagFree (s : State) (tag : Tag) : Prop := ∀ r ∈ s.host.records, r.tag ≠ tag

/-- The host link after a response is sent. -/
def sentHost (s : State) (r : HostResponse) : Sent := { s.sent with host := s.sent.host ++ [r] }

/-- A new transaction record (R114). -/
def openedRecord (tag : Tag) (kind : AccessKind) (cls : TxClass) (length awaited : Nat) : TxRecord where
  tag := tag
  kind := kind
  cls := cls
  length := length
  completed := 0
  awaited := awaited
  anyFailed := false
  withheld := false
  data := if kind = .read then List.replicate length none else []

/-- Word `i` of a transfer that starts at `first`, as a pass-through READ (R118). -/
def readWord (tag : Tag) (first : Addr) (i : Nat) : PassWord :=
  { tag := tag, index := i, addr := first + BitVec.ofNat 32 (8 * i), write := none }

/-- The oldest outstanding request is answered, and the one behind it does not time out: its deadline has not passed, or its own
response has arrived by then (R129, R135). -/
def Answers (s : State) (o : Outstanding) (rest : List Outstanding) (now : Arrival) : Prop :=
  s.resetAsserted = false ∧ s.port.state = .up ∧ s.port.outstanding = o :: rest ∧
    ∀ p ∈ rest.head?, now.moment ≤ p.deadline ∨ now.nextArrived = true

/-- The state with the oldest outstanding request taken out of the list. -/
def withoutOldest (s : State) : State := { s with port := { s.port with outstanding := s.port.outstanding.tail } }

/-- A request is granted: it joins the outstanding list with its deadline and goes down the memory link (R128, R131, R134). -/
def granted (s : State) (owner : Owner) (a : Addr) (request : MemRequest) (now starvation : Nat) : State :=
  { s with
    port := { s.port with
      outstanding := s.port.outstanding ++ [{ owner := owner, addr := a, deadline := now + s.port.timeout }]
      starvation := starvation }
    sent := { s.sent with memory := s.sent.memory ++ [request] } }

/-- The starvation count after a grant to another request than the scrub write (R132). -/
def starved (s : State) : Nat := if s.scrub.engine = .offering then s.port.starvation + 1 else 0

/-- The scrub write, if it stands offered, is not owed its share (R131 place 1). -/
def ShareNotOwed (s : State) : Prop := s.scrub.engine = .offering → s.scrub.jobs ≠ [] → s.port.starvation + 1 < s.port.share

/-- The value of an operand of one lane, merged separately: the result and whether that merge clamps (R25, R26). -/
def mergeOnce (op : Operation) (w : LaneWidth) (m : Nat × Bool) (a : Nat) : Nat × Bool :=
  (laneResult op w m.1 a, m.2 || laneClamps op w m.1 { value := a, saturated := false })

/-- Lane k of an entry, when active, clamps on the word read (R26). -/
def laneClampsOn (e : MergeEntry) (data : Word64) (k : Nat) : Bool :=
  match e.lanes[k]? with
  | some (some a) => laneClamps e.operation e.width (laneValue e.width data k) a
  | _ => false

/-- Lane k of an entry, when active, crosses the watch threshold: downward for MIN and SAT_SUB, upward for the others (R36). -/
def laneCrossesOn (e : MergeEntry) (threshold : Option Word64) (data : Word64) (k : Nat) : Prop :=
  ∃ t a, threshold = some t ∧ e.lanes[k]? = some (some a) ∧
    if e.operation = .min ∨ e.operation = .satSub then
      t.toNat < laneValue e.width data k ∧ laneResult e.operation e.width (laneValue e.width data k) a.value ≤ t.toNat
    else laneValue e.width data k < t.toNat ∧ t.toNat ≤ laneResult e.operation e.width (laneValue e.width data k) a.value

/-- A clamping lane raises a CLAMP record: never under OFF, always under EACH, and under ONCE for the lowest clamping lane when the
last clamp epoch is not the entry's epoch, 0 for an ungrouped region (R32, R33). -/
def clampRaisedOn (r : Region) (e : MergeEntry) (data : Word64) (k : Nat) : Prop :=
  laneClampsOn e data k = true ∧
    (r.clampReport = .each ∨
      (r.clampReport = .once ∧ r.lastClamp ≠ some (e.epoch.getD 0) ∧ ∀ j, j < k → laneClampsOn e data j = false))

/-- What lane k of an entry makes of the word read: its result when it is active, else the value read (R24). -/
def laneResultOn (e : MergeEntry) (data : Word64) (k : Nat) : Nat :=
  match e.lanes[k]? with
  | some (some a) => laneResult e.operation e.width (laneValue e.width data k) a.value
  | _ => laneValue e.width data k

/-- The record of lane k of a write-back, with the value written to the lane (R35, R37). -/
def laneRecord (kind : EventKind) (e : MergeEntry) (data : Word64) (k : Nat) : Report :=
  { kind := kind, region := some e.region, address := some e.addr, lane := some k, epoch := e.epoch
    value := some (BitVec.ofNat 64 (laneResultOn e data k)) }

/-- One request is failed, and its failure is handed to its source (R53, R103, R122, R136, R137): a merge entry is removed with the
cause and word state of R53, a word of a host request completes as failed, and the word at the cursor of the active scrub job is
failed. An owner that has gone is handed nothing (R128). -/
inductive Fails : State → Failing → State → Prop
  | mergeRead (s : State) (o : Outstanding) (cause : Cause) (stamp : Nat) (e : MergeEntry) (owner : o.owner = .mergeRead stamp)
      (entry : HasEntry s stamp e) : Fails s (.outstanding o cause) (s.removeEntry e (some (cause, .unchanged)))
  | mergeWrite (s : State) (o : Outstanding) (cause : Cause) (stamp : Nat) (e : MergeEntry) (owner : o.owner = .mergeWrite stamp)
      (entry : HasEntry s stamp e) : Fails s (.outstanding o cause) (s.removeEntry e (some (cause, .indeterminate)))
  | passWord (s : State) (o : Outstanding) (cause : Cause) (tag : Tag) (index : Nat)
      (owner : o.owner = .passRead tag index ∨ o.owner = .passWrite tag index) :
      Fails s (.outstanding o cause) (s.completeWord tag index true 0)
  | scrubWrite (s : State) (o : Outstanding) (cause : Cause) (job : JobName) (owner : o.owner = .scrubWrite (some job)) :
      Fails s (.outstanding o cause) (s.scrubDone true)
  | orphan (s : State) (o : Outstanding) (cause : Cause)
      (owner : o.owner = .scrubWrite none ∨
        ∃ stamp, (o.owner = .mergeRead stamp ∨ o.owner = .mergeWrite stamp) ∧ NoEntry s stamp) :
      Fails s (.outstanding o cause) s
  | offeredEntry (s : State) (f : Failing) (e e' : MergeEntry) (offered : f = .writeBack e ∨ f = .mergeRead e)
      (entry : HasEntry s e.stamp e') : Fails s f (s.removeEntry e' (some (.portDown, .unchanged)))
  | goneEntry (s : State) (f : Failing) (e : MergeEntry) (offered : f = .writeBack e ∨ f = .mergeRead e)
      (entry : NoEntry s e.stamp) : Fails s f s
  | offeredWord (s : State) (x : PassWord) : Fails s (.word x) ((s.completeWord x.tag x.index true 0).wordPassed x)

/-- Requests are failed in their order, and a request that a failure leads its source to offer is failed at that moment, before the
next (R136, R137; log 11): pass-through words, and the reads of entries that have become eligible. -/
inductive FailsAll : State → List Failing → State → Prop
  | none (s : State) : FailsAll s [] s
  | next (s u t : State) (f : Failing) (rest offered : List Failing) (reads : List MergeEntry) (one : Fails s f u)
      (new : Selects (fun e => MayBeRead u e ∧ ∀ x ∈ s.merge.queue, MayBeRead s x → x.stamp ≠ e.stamp) u.merge.queue reads)
      (all : offered = u.port.offered.map Failing.word ++ reads.map Failing.mergeRead)
      (others : FailsAll { u with port := { u.port with offered := [] } } (offered ++ rest) t) : FailsAll s (f :: rest) t

end Sys2Proof.Safety
end

