-- ==== Sys2Proof/WellFormed.lean ====
section
/-! DEFINITION. Which commands can arise: the checks that the types of the operands do not make. -/

namespace Sys2Proof

/-- A host request that the host link can carry: its length is at most 31 words (R111). -/
def HostRequest.wellFormed (r : HostRequest) : Bool :=
  match r.kind with
  | .read _ => true
  | .write words => words.length ≤ 31

/-- A command that can arise: a request the host link can carry; a BAD_FRAME whose bytes are a complete frame that the frame
receiver refuses (R173). -/
def Instr.wellFormed (c : Instr) : Bool :=
  match c with
  | .hostRequest arriving => arriving.all HostRequest.wellFormed
  | .badFrame frame => frameComplete frame && frameRefused frame
  | .contribution => true
  | .stalledReadPresented => true
  | .grant _ => true
  | .responseTaken _ _ => true
  | .responseTimeout => true
  | .probeAnswered _ => true
  | .probeTimeout => true
  | .flipEdge => true
  | .reset => true
  | .transferEnd _ => true
  | .status => true
  | .regionWrite _ => true
  | .regionRead _ _ => true
  | .groupSet _ _ => true
  | .groupRead _ _ => true
  | .arm _ _ => true
  | .disarm => true
  | .flip _ _ => true
  | .release _ _ => true
  | .eventTake => true
  | .attnMaskSet _ _ => true
  | .attnMaskRead => true
  | .portSet _ _ => true
  | .portRecover _ => true
  | .scrubStatus => true
  | .queuePeek _ _ => true

end Sys2Proof
end

