-- ==== Sys2Proof/Certificates/Slice0/Obligations.lean ====
section
/-! DEFINITION. The statements about the OB416 for the provers. -/

open Sys2Proof Sys2Proof.Machine Sys2Proof.Safety

/-! ### The machine and its queue of commands -/

/-- Each command taken is one step (00_scope.md, Conventions): a step runs the command at the front of the queue. The order of the
queue is the order in which events are taken (log 2). With no command and no signal waiting the part idles (log 1). -/
def Obligations.StepRunsFrontCommand : Prop :=
  ∀ (c : Instr) (s : State), step { s with pending := c :: s.pending } = exec c s ∧
    (s.pending = [] → s.pins = [] → step s = .next s)

/-- No command stops the part, and none touches the commands and signals that wait behind it: RESET keeps them too, which is the
model's choice (log 16). An event that cannot arise in the present state leaves it (log 6): CONTRIBUTION without an open LIVE write
in the intake, STALLED_READ_PRESENTED without a stalled LIVE read, and BAD_FRAME with bytes that are no complete refused frame. GRANT
changes nothing while the port is not UP, while 8 requests are outstanding, and while nothing stands offered: no scrub write, no
write-back, no pass-through word, no read of an eligible entry (R128, R130, R131). The events whose causes lie in the port are in
ProbeAndRecovery and PassedDeadlineFailsPort, the edges of the lines in ResetSetsEveryBlock and LinkEventsExecuteNothing. Stamps are
log 7. -/
def Obligations.EveryCommandAnswersNext : Prop :=
  ∀ s : State,
    (∀ c : Instr, ∃ t, exec c s = .next t ∧ t.pending = s.pending ∧ t.pins = s.pins) ∧
    ((∀ w stalled, s.host.intake ≠ .liveWrite w stalled) → exec .contribution s = .next s) ∧
    ((∀ r, s.host.intake ≠ .liveRead r) → exec .stalledReadPresented s = .next s) ∧
    (∀ frame, frameComplete frame = false ∨ frameRefused frame = false → exec (.badFrame frame) s = .next s) ∧
    (s.port.state ≠ .up ∨ 8 ≤ s.port.outstanding.length ∨
        (NothingOffered s ∧ ¬(s.scrub.engine = .offering ∧ s.scrub.jobs ≠ [])) →
      ∀ now, exec (.grant now) s = .next s)

/-- Only a grant and an accepted PORT_RECOVER send a request down the memory link; RESET clears the model's log of them (log 8). A
bit of the management link runs at most the command of the frame it completes: it samples MSEL, MDIN and RESET and does nothing
else (R170 to R175; log 5). Below eight bits, with MSEL high, while RESET is asserted, in an abandoned transfer, behind a complete
request frame, or with a byte that completes no frame, the link alone changes; the byte that completes a frame runs its command.
That the bits clocked while RESET is asserted are counted, and that the byte of a transfer that was being clocked at the release is
discarded and the next one taken (`skipping`), is the model's choice (log 16). -/
def Obligations.OnlyGrantAndProbeReachMemory : Prop :=
  (∀ (c : Instr) (s t : State), exec c s = .next t → (∀ now, c ≠ .grant now) → (∀ now, c ≠ .portRecover now) → c ≠ .reset →
    t.sent.memory = s.sent.memory) ∧
  ∀ (s u : State) (value : Bool) (now : Nat) (rest : List PinSignal) (b : Byte), s.pending = [] → s.pins = .bit value now :: rest →
    u = { s with pins := rest } → b = byteOf (s.link.bits ++ [value]) →
    (s.link.selected = false → step s = .next u) ∧
    (s.link.selected = true → s.link.bits.length < 7 →
      step s = .next { u with link := { s.link with bits := s.link.bits ++ [value] } }) ∧
    (s.link.selected = true → s.link.bits.length = 7 →
      (s.resetAsserted = true ∨ s.link.reception = .abandoned → step s = .next { u with link := { s.link with bits := [] } }) ∧
      (s.resetAsserted = false → s.link.reception = .skipping →
        step s = .next { u with link := { s.link with bits := [], reception := .taking } }) ∧
      (s.resetAsserted = false → s.link.reception = .taking →
        (frameComplete s.link.receiver = true →
          step s = .next { u with link := { s.link with bits := [], response := s.link.response.tail } }) ∧
        (frameComplete s.link.receiver = false → frameComplete (s.link.receiver ++ [b]) = false →
          step s = .next { u with link := { s.link with bits := [], receiver := s.link.receiver ++ [b] } }) ∧
        (frameComplete s.link.receiver = false → ∀ c, (frameParts c).isSome = true → (∀ m, c = .portRecover m → m = now) →
          s.link.receiver ++ [b] = frameOf c → Listens s c ∧ step s = exec c u) ∧
        (frameComplete s.link.receiver = false → ∀ frame, frameComplete frame = true → frameRefused frame = true →
          s.link.receiver ++ [b] = frame → s.link.takes frame = true ∧ step s = exec (.badFrame frame) u)))

/-! ### Reset -/

/-- Reset (R169): every block takes the values of the table, whatever was in flight, and no event is raised; a transfer in progress
is abandoned (R175). RESET may stay asserted: MDOUT then carries FFH, and every command but RESET and the end of a transfer changes
nothing (R126, R169, R175). When it is released, the part goes on, and a transfer that began meanwhile counts from its first whole
byte (R175). An input that keeps its level changes nothing but this: asserted again, it leaves every block at its reset values and
the link its bits (log 6). The stamp counter and the logs are the model's own fields (logs 7, 8), and so are the commands and signals
that wait, which are kept (log 16). -/
def Obligations.ResetSetsEveryBlock : Prop :=
  ∀ s : State,
    (∃ t, exec .reset s = .next t ∧ BlocksReset t ∧ t.resetAsserted = false ∧ t.pins = s.pins ∧ t.pending = s.pending ∧
      (s.resetAsserted = false → t.link = {
        selected := s.link.selected, reception := if s.link.selected then .abandoned else .taking
        receiver := [], bits := [], response := [] }) ∧
      (s.resetAsserted = true → t.link = { s.link with
        receiver := [], response := []
        reception := if s.link.reception = .taking ∧ s.link.bits ≠ [] then .skipping else s.link.reception })) ∧
    (∀ rest, s.pending = [] → s.pins = .assertReset :: rest → s.resetAsserted = false → ∃ t, step s = .next t ∧ BlocksReset t ∧
      t.resetAsserted = true ∧ t.pins = rest ∧ t.pending = [] ∧ t.mdout = some 0xFF#8 ∧
      t.link = {
        selected := s.link.selected, reception := if s.link.selected then .abandoned else .taking
        receiver := [], bits := [], response := [] }) ∧
    (∀ rest, s.pending = [] → s.pins = .assertReset :: rest → s.resetAsserted = true → ∃ t, step s = .next t ∧ BlocksReset t ∧
      t.resetAsserted = true ∧ t.pins = rest ∧ t.pending = [] ∧ t.link = { s.link with receiver := [], response := [] }) ∧
    (∀ rest, s.pending = [] → s.pins = .releaseReset :: rest → s.resetAsserted = false → step s = .next { s with pins := rest }) ∧
    (s.resetAsserted = true → ∀ c, c ≠ .reset → (∀ bytes, c ≠ .transferEnd bytes) → exec c s = .next s) ∧
    (∀ rest, s.pending = [] → s.pins = .releaseReset :: rest → s.resetAsserted = true → step s = .next { s with
      resetAsserted := false
      pins := rest
      link := { s.link with
        reception := if s.link.reception = .taking ∧ s.link.bits ≠ [] then .skipping else s.link.reception } })

/-! ### The management link (Chapter 10) -/

/-- Transfers of the management link. MSEL falling starts one with the receiver empty (R170). The end of a transfer empties the
frame receiver, the byte being clocked and the response buffer and executes nothing (R170, R175). A complete request frame with a
wrong CRC, a code that is not listed, a length that is not its command's, or a length byte above 30, executes nothing and is
answered BAD_FRAME without data: 04H, 00H, 54H (R171, R173). A frame behind the request frame of its transfer, or in a transfer that
RESET abandoned, is ignored, be it that of a command or one that would be refused: only the response is shifted on (R170, R175). The
link takes a frame with MSEL high, behind a byte that it discards, and where the frame goes on from the bytes and bits received.
MDOUT is high-impedance while MSEL is high, and carries the response, then FFH; FFH under RESET is log 16. That a command stands for
a whole frame is log 5. -/
def Obligations.LinkEventsExecuteNothing : Prop :=
  ∀ s : State,
    (∀ unexecuted, exec (.transferEnd unexecuted) s = .next { s with
      link := { selected := false, reception := .taking, receiver := [], bits := [], response := [] } }) ∧
    (∀ (code n check : Byte) (params frame : List Byte), s.resetAsserted = false → s.link.takes frame = true →
      (params.length = 2 * n.toNat ∧ n.toNat ≤ 30 ∧ (check ≠ crc8 (code :: n :: params) ∨ fixedPairs code ≠ some n.toNat) ∧
          frame = (code :: n :: params) ++ [check]) ∨ (30 < n.toNat ∧ frame = [code, n]) →
        exec (.badFrame frame) s = .next { s with link := {
          selected := true, reception := .taking, receiver := frame, bits := [], response := [0x04#8, 0x00#8, 0x54#8] } }) ∧
    (∀ c, (frameParts c).isSome = true → s.resetAsserted = false → s.link.takes (frameOf c) = false →
      exec c s = .next { s with link := { s.link with response := s.link.response.drop (frameOf c).length } }) ∧
    (∀ frame, frameComplete frame = true → frameRefused frame = true → s.resetAsserted = false → s.link.takes frame = false →
      exec (.badFrame frame) s = .next { s with link := { s.link with response := s.link.response.drop frame.length } }) ∧
    (∀ rest, s.pending = [] → s.pins = .select :: rest → step s = .next { s with
      pins := rest
      link := if s.link.selected then s.link else
        { selected := true, reception := .taking, receiver := [], bits := [], response := [] } }) ∧
    (∀ rest, s.pending = [] → s.pins = .deselect :: rest → step s = .next { s with
      pins := rest
      link := { selected := false, reception := .taking, receiver := [], bits := [], response := [] } }) ∧
    (∀ frame, s.link.takes frame = true ↔ s.link.selected = false ∨ s.link.reception = .skipping ∨
      (s.link.reception = .taking ∧ frameComplete s.link.receiver = false ∧ (∃ rest, frame = s.link.receiver ++ rest) ∧
        s.link.bits.length ≤ 8 ∧ ∀ (i : Nat) (b : Bool), s.link.bits[i]? = some b →
          b = (frame.getD s.link.receiver.length 0).getLsbD (7 - i))) ∧
    (s.resetAsserted = true → s.mdout = some 0xFF#8) ∧
    (s.resetAsserted = false → s.link.selected = false → s.mdout = none) ∧
    (s.resetAsserted = false → s.link.selected = true → s.mdout = some (s.link.response.headD 0xFF#8))

/-- Every management command is read back from its own frame, with every parameter byte it carries (R171, R172, R173, R181).
PORT_RECOVER's moment is the model's operand, not the frame's (log 3). The frames are those of the command-code list and the
parameter layouts (FrameTable), and the check value, the extent of a frame, its refusal and the bits of a byte are those of R170 to
R173 (FrameRules). -/
def Obligations.FrameRoundTrip : Prop :=
  FrameTable ∧ FrameRules ∧ ∀ (now : Nat) (c : Instr), (frameParts c).isSome = true → (∀ m, c = .portRecover m → m = now) →
    decodeFrame now (frameOf c) = some c

/-- The commands that read: STATUS with the items of R178 (R178), REGION_READ and GROUP_READ with every field of one record (R6,
R94), SCRUB_STATUS (R110), QUEUE_PEEK with the entry at one position or EMPTY (R65), and ATTN_MASK_READ (R152), each in the bytes of
the layout tables and with the codes of the code table (R179). An index or position out of range gives BAD_ARGUMENT 1 (R177). Each
is taken in every mode and changes nothing but the link. The filling byte of one-byte data is log 14. -/
def Obligations.ReadsChangeNothing : Prop :=
  CodeTable ∧ ∀ (s : State) (index fill : Byte),
    Answered .status s s 0x00#8 [
        s.mode.code, (s.armOption.map ArmOption.code).getD 0, s.port.state.code, s.host.intake.code,
        BitVec.ofNat 8 (s.merge.queue.countP fun e => e.state = .waiting),
        BitVec.ofNat 8 (s.merge.queue.countP fun e => e.state = .reading),
        BitVec.ofNat 8 (s.merge.queue.countP fun e => (wordRead e).isSome),
        BitVec.ofNat 8 s.merge.hold.length, BitVec.ofNat 8 s.events.queue.length, if s.events.loss then 1 else 0,
        if s.scrub.jobs = [] then 0 else 1, 0] ∧
    (∀ ix : RegionIx, index.toNat = ix.val → Answered (.regionRead index fill) s s 0x00#8 (regionBytes s.regions[ix])) ∧
    (15 < index.toNat → Answered (.regionRead index fill) s s 0x03#8 [1, 0]) ∧
    (∀ g : GroupIx, index.toNat = g.val → Answered (.groupRead index fill) s s 0x00#8
        [s.groups[g].state.code, s.groups[g].active.code, s.groups[g].epoch.extractLsb' 8 8, s.groups[g].epoch.extractLsb' 0 8,
          if s.groups[g].flipPending then 1 else 0, BitVec.ofNat 8 s.groups[g].drainCount,
          if s.groups[g].pinDriven then 1 else 0, 0]) ∧
    (3 < index.toNat → Answered (.groupRead index fill) s s 0x03#8 [1, 0]) ∧
    (s.scrub.jobs = [] → Answered .scrubStatus s s 0x00#8 (s.scrub.engine.code :: List.replicate 21 0)) ∧
    (∀ j jobs, s.scrub.jobs = j :: jobs → Answered .scrubStatus s s 0x00#8 (scrubBytes s.scrub.engine j jobs)) ∧
    (15 < index.toNat → Answered (.queuePeek index fill) s s 0x03#8 [1, 0]) ∧
    (index.toNat ≤ 15 → s.merge.queue.length ≤ index.toNat → Answered (.queuePeek index fill) s s 0x06#8 []) ∧
    (∀ e, index.toNat ≤ 15 → s.merge.queue[index.toNat]? = some e →
      Answered (.queuePeek index fill) s s 0x00#8 (entryBytes e)) ∧
    Answered .attnMaskRead s s 0x00#8 [s.events.mask.extractLsb' 8 8, s.events.mask.extractLsb' 0 8]

/-- The commands that a mode or a group's state does not take (R177): REGION_WRITE outside BYPASS, and in BYPASS with an index
above 15 (R4); ARM with an option that is not listed, and outside BYPASS (R158); DISARM in BYPASS and STOPPING (R163); RELEASE of a
bad index, outside RUN, and of a group that is not HELD (R85). Each answers as R176 gives and changes nothing but the link. The
filling byte of one-byte data is log 14. -/
def Obligations.RefusedCommandsChangeNothing : Prop :=
  ∀ (s : State) (params : Vector Byte 44) (x fill : Byte),
    (s.mode ≠ .bypass → Answered (.regionWrite params) s s 0x01#8 [s.mode.code, 0]) ∧
    (s.mode = .bypass → 15 < params[0].toNat → Answered (.regionWrite params) s s 0x03#8 [0, 0]) ∧
    (x.toNat ≠ 1 → x.toNat ≠ 2 → Answered (.arm x fill) s s 0x03#8 [1, 0]) ∧
    (x.toNat = 1 ∨ x.toNat = 2 → s.mode ≠ .bypass → Answered (.arm x fill) s s 0x01#8 [s.mode.code, 0]) ∧
    (s.mode = .bypass ∨ s.mode = .stopping → Answered .disarm s s 0x01#8 [s.mode.code, 0]) ∧
    (3 < x.toNat → Answered (.release x fill) s s 0x03#8 [1, 0]) ∧
    (x.toNat ≤ 3 → s.mode ≠ .run → Answered (.release x fill) s s 0x01#8 [s.mode.code, 0]) ∧
    (∀ g : GroupIx, x.toNat = g.val → s.mode = .run → s.groups[g].state ≠ .held →
      Answered (.release x fill) s s 0x02#8 [s.groups[g].state.code, 0])

/-! ### The region table and the decoder (Chapter 1) -/

/-- A REGION_WRITE in BYPASS whose bytes are the layout of a storable record stores exactly that record, its last clamp epoch absent,
and answers DONE (R4, R180). -/
def Obligations.RegionWriteStoresRecord : Prop :=
  ∀ (s : State) (ix : RegionIx) (fill : Byte) (r : Region) (params : Vector Byte 44), s.mode = .bypass → Storable r →
    params.toList = [BitVec.ofNat 8 ix.val, fill] ++ (regionBytes r).take 42 →
      Answered (.regionWrite params) s { s with regions := s.regions.set ix { r with lastClamp := none } } 0x00#8 []

/-- REGION_WRITE checks its fields in field order and reports the first that fails; fields outside the table of R5, and a layout
with no failing field, are accepted (R5). The record then stored is the one that the bytes give (LayoutGives): the bytes of an absent
field, byte 7 and the presence bits that belong to no field are ignored, and the last clamp epoch is absent (R4, R179, R180). The
filling byte of one-byte data is log 14. -/
def Obligations.RegionWriteReportsFirstFailure : Prop :=
  ∀ (s : State) (index fill : Byte) (b : Vector Byte 42) (params : Vector Byte 44), s.mode = .bypass → index.toNat ≤ 15 →
    params.toList = [index, fill] ++ b.toList →
      (∀ k, fieldFails b k → (∀ j, 1 ≤ j → j < k → ¬fieldFails b j) →
        Answered (.regionWrite params) s s 0x03#8 [BitVec.ofNat 8 k, 0]) ∧
      ((∀ k, ¬fieldFails b k) → ∃ r, LayoutGives b r ∧
        Answered (.regionWrite params) s { s with regions := s.regions.set (Fin.ofNat 16 index.toNat) r } 0x00#8 [])

/-- Outside BYPASS, with a consistent table, a word has the class of the one range it lies in (R9). With any table, the word lies in
a bank, where the shield stands (R15), exactly when it lies in the range of bank A, or of bank B where present, of an enabled region
(R2). -/
def Obligations.WordClassFollowsRanges : Prop :=
  (∀ (regions : Vector Region 16) (a : Addr), inAnyBank regions a = true ↔ ∃ ix : RegionIx, regions[ix].enabled = true ∧
    ∃ base ∈ regions[ix].bankABase :: regions[ix].bankBBase.toList, InRange regions[ix] base a.toNat) ∧
  ∀ (regions : Vector Region 16) (a : Addr), Consistent regions →
    (∀ ix : RegionIx, regions[ix].enabled = true →
      (InRange regions[ix] regions[ix].liveBase a.toNat → classifyWord regions a = .live ix) ∧
      (∀ base ∈ regions[ix].snapBase, InRange regions[ix] base a.toNat → classifyWord regions a = .snap ix) ∧
      (∀ base ∈ regions[ix].bankABase :: regions[ix].bankBBase.toList,
        InRange regions[ix] base a.toNat → classifyWord regions a = .aliasBank ix)) ∧
    ((∀ ix : RegionIx, regions[ix].enabled = true → ∀ base ∈ namedBases regions[ix], ¬InRange regions[ix] base a.toNat) →
      classifyWord regions a = .plain)

/-- The verdict on a whole request (R8, R10, R11, R12): MALFORMED for its length, its end, mixed words, or a lane covered in part by
an open LIVE write, some of the mask bits of its bytes at 1 and others at 0 (R22); else PLAIN in BYPASS, and outside it the class of
its words, LIVE and SNAP open exactly in RUN. -/
def Obligations.DecodeVerdict : Prop :=
  ∀ (mode : Mode) (regions : Vector Region 16) (r : HostRequest) (n : Nat) (start : Addr),
    n = (match r.kind with | .read length => length.val | .write ws => ws.length) → start = r.wordAddress ++ 0#3 →
    (n = 0 ∨ 16 < n ∨ 2 ^ 32 < start.toNat + 8 * n → decodeRequest mode regions r = .malformed) ∧
    (1 ≤ n → n ≤ 16 → start.toNat + 8 * n ≤ 2 ^ 32 →
      (mode = .bypass → decodeRequest mode regions r = .plain) ∧
      (mode ≠ .bypass → (∃ i, i < n ∧ classifyWord regions (start + BitVec.ofNat 32 (8 * i)) ≠ classifyWord regions start) →
        decodeRequest mode regions r = .malformed) ∧
      (mode ≠ .bypass → (∀ i, i < n → classifyWord regions (start + BitVec.ofNat 32 (8 * i)) = classifyWord regions start) →
        match classifyWord regions start with
        | .plain => decodeRequest mode regions r = .plain
        | .aliasBank ix => decodeRequest mode regions r = .aliasBank ix
        | .snap ix => ∀ base, regions[ix].snapBase = some base →
            decodeRequest mode regions r = .snap ix (start - base) (mode = .run)
        | .live ix =>
          (mode = .run ∧ (∃ ws, r.kind = .write ws ∧ ∃ w ∈ ws, w.mask ≠ 0 ∧
              ∃ k, LanePartial regions[ix].width w.mask k) → decodeRequest mode regions r = .malformed) ∧
          (¬(mode = .run ∧ ∃ ws, r.kind = .write ws ∧ ∃ w ∈ ws, w.mask ≠ 0 ∧
              ∃ k, LanePartial regions[ix].width w.mask k) →
            decodeRequest mode regions r = .live ix (start - regions[ix].liveBase) (mode = .run))))

/-! ### ARM and DISARM (Chapters 1 and 9) -/

/-- Validation passes exactly for the consistent tables (R16 to R19). -/
def Obligations.ValidationMeansConsistent : Prop := ∀ regions : Vector Region 16, validate regions = none ↔ Consistent regions

/-- A failed ARM names the first enabled region with a failing check and the first of its checks that fails, in the order
GROUP_FIELDS, WRAP, THRESHOLD, PATTERN, OVERLAP, which is that of their codes (R16 to R19). It changes nothing but the link (R20). -/
def Obligations.ArmFailedChangesNothing : Prop :=
  ∀ (s : State) (option fill : Byte) (ix : RegionIx) (reason : ArmReason), s.mode = .bypass → option = 1 ∨ option = 2 →
    s.regions[ix].enabled = true → CheckFails s.regions ix reason →
    (∀ earlier : ArmReason, earlier.code.toNat < reason.code.toNat → ¬CheckFails s.regions ix earlier) →
    (∀ j : RegionIx, j < ix → s.regions[j].enabled = true → ∀ other, ¬CheckFails s.regions j other) →
      Answered (.arm option fill) s s 0x05#8 [BitVec.ofNat 8 ix.val, reason.code]

/-- ARM KEEP with a consistent table, with no job in the list and no word standing offered in a bank, enters RUN in one step: last
clamp epochs absent, every group READY on its remembered bank with its epoch and pin-driven kept, and ARMED raised (R159, R161,
R162). -/
def Obligations.ArmKeepEntersRun : Prop :=
  ∀ (s : State) (fill : Byte), Listens s (.arm 2 fill) → s.mode = .bypass → validate s.regions = none → s.scrub.jobs = [] →
    (∀ w, s.host.intake = .plainWrite w → inAnyBank s.regions (w.start + BitVec.ofNat 32 (8 * w.position)) = false) →
      ∃ t, exec (.arm 2 fill) s = .next t ∧
        (∀ g : GroupIx, t.groups[g] = { s.groups[g] with
          state := .ready, active := s.remembered[g], flipPending := false, drainCount := 0 }) ∧
        (∀ ix : RegionIx, t.regions[ix] = { s.regions[ix] with lastClamp := none }) ∧
        t = { s with
          mode := .run, armOption := some .keep, groups := t.groups, regions := t.regions
          events := s.events.raise { kind := .armed, cause := some .keep }
          link := linkAfter (.arm 2 fill) 0x00#8 [2, 2, 0, 0] }

/-- ARM SCRUB_ALL with a consistent table. With an enabled region it enters STARTING: the startup jobs in the list, the engine
OFFERING when the port is UP and else PAUSED, the groups unchanged, no event (R98, R100, R159). With none it enters RUN in the
same step: no job, every group READY on bank A with its epoch and pin-driven kept, and ARMED raised (R160, R162). That the jobs
start while words of an earlier live read stand offered is log 27. -/
def Obligations.ArmScrubAllEntersStarting : Prop :=
  ∀ (s : State) (fill : Byte), Listens s (.arm 1 fill) → s.mode = .bypass → validate s.regions = none →
    s.scrub = { engine := .idle, jobs := [] } →
    (∀ w, s.host.intake = .plainWrite w → inAnyBank s.regions (w.start + BitVec.ofNat 32 (8 * w.position)) = false) →
      ∃ t, exec (.arm 1 fill) s = .next t ∧ (∀ ix : RegionIx, t.regions[ix] = { s.regions[ix] with lastClamp := none }) ∧
        ((∃ ix : RegionIx, s.regions[ix].enabled = true) → t = { s with
          mode := .starting, armOption := some .scrubAll, regions := t.regions
          scrub := { engine := if s.port.state = .up then .offering else .paused, jobs := startupJobs s.regions }
          link := linkAfter (.arm 1 fill) 0x00#8 [1, 1, BitVec.ofNat 8 (startupJobs s.regions).length, 0] }) ∧
        ((∀ ix : RegionIx, s.regions[ix].enabled = false) →
          (∀ g : GroupIx, t.groups[g] = { s.groups[g] with state := .ready, active := .a, flipPending := false, drainCount := 0 }) ∧
          t = { s with
            mode := .run, armOption := some .scrubAll, groups := t.groups, regions := t.regions
            events := s.events.raise { kind := .armed, cause := some .scrubAll }
            link := linkAfter (.arm 1 fill) 0x00#8 [1, 2, 0, 0] })

/-- The startup jobs are one for each bank of each enabled region, each at its start with the bank's base, its words and its pattern
word: as many as the enabled ungrouped regions and twice the enabled grouped ones (R95, R98, R160). They stand in ascending region
index, bank A before bank B within a region (R98). The pattern word is the preset word, whole, under PRESET (R28), and under
IDENTITY it has 0 in every lane for WRAP_ADD, SAT_ADD, MAX, BIT_SET and REPLACE, and M in every lane for MIN and BIT_CLEAR (R27,
R96). The base of bank A is the bank A base, and that of bank B the bank B base where present (R2); where it is absent the base is a
free value (log 15). -/
def Obligations.StartupJobsCoverBanks : Prop :=
  (∀ regions : Vector Region 16,
    (startupJobs regions).length =
      allRegions.countP (fun ix => regions[ix].enabled && regions[ix].group.isNone) +
        2 * allRegions.countP (fun ix => regions[ix].enabled && regions[ix].group.isSome) ∧
    ∀ j : ScrubJob, j ∈ startupJobs regions ↔
      regions[j.region].enabled = true ∧ (j.bank = .b → regions[j.region].group.isSome = true) ∧
        j = {
          region := j.region, bank := j.bank, base := regions[j.region].bankBase j.bank, size := regions[j.region].size * 512
          pattern := regions[j.region].patternWord, cursor := 0, failed := 0, firstFailed := none }) ∧
  (∀ regions : Vector Region 16, (startupJobs regions).Pairwise fun x y =>
    x.region < y.region ∨ (x.region = y.region ∧ x.bank = .a ∧ y.bank = .b)) ∧
  ∀ r : Region,
    (r.bankBase .a = r.bankABase ∧ ∀ b, r.bankBBase = some b → r.bankBase .b = b) ∧
    (∀ preset, r.pattern = .preset → r.preset = some preset → r.patternWord = preset) ∧
    (r.pattern = .identity → ∀ (w : LaneWidth) (k : Nat), k < w.lanes →
      (r.operation = .wrapAdd ∨ r.operation = .satAdd ∨ r.operation = .max ∨ r.operation = .bitSet ∨ r.operation = .replace →
        laneValue w r.patternWord k = 0) ∧
      (r.operation = .min ∨ r.operation = .bitClear → laneValue w r.patternWord k = 2 ^ w.bits - 1))

/-- An ARM that passes, with KEEP or SCRUB_ALL, while a word of a PLAIN write stands offered in a bank withdraws that word: REFUSED
with reason SHIELD is raised for its address and the intake is IDLE; every other offer and record stays. The words before it stay
issued. When all of them have completed, or none was offered, the write is answered REFUSED at once and its tag leaves the set; else
its record is kept as withheld, and the response waits for them (R15, R119). KEEP with no job goes on to RUN with ARMED, SCRUB_ALL to
STARTING with the startup jobs (R159 to R162). The REFUSED record before ARMED is log 13, the log of responses log 8, and the number
of words awaited log 9. -/
def Obligations.ArmWithholdsOfferedWord : Prop :=
  ∀ (s u : State) (code fill : Byte) (w : PlainWrite) (r : TxRecord) (a : Addr) (n : Nat), Listens s (.arm code fill) →
    code = 1 ∨ code = 2 → s.mode = .bypass → validate s.regions = none → s.scrub = { engine := .idle, jobs := [] } →
    s.host.intake = .plainWrite w → a = w.start + BitVec.ofNat 32 (8 * w.position) → inAnyBank s.regions a = true →
    HasRecord s w.tag r → n = (w.words.take w.position).countP (fun y => y.mask ≠ 0) →
    (r.completed = n ∧ u = { s with
        host := { s.host with intake := .idle, records := s.host.records.filter fun y => y.tag ≠ w.tag }
        sent := sentHost s { tag := w.tag, status := .refused, data := [] } }) ∨
      (r.completed < n ∧ u = { s with host := { s.host with
        intake := .idle
        records := s.host.records.map fun y => if y.tag = w.tag then { r with withheld := true, awaited := n } else y } }) →
      ∃ t, exec (.arm code fill) s = .next t ∧ (∀ ix : RegionIx, t.regions[ix] = { s.regions[ix] with lastClamp := none }) ∧
        t.port = { s.port with offered := s.port.offered.filter fun x => ¬(x.tag = w.tag ∧ x.write.isSome = true) } ∧
        (code = 2 →
          (∀ g : GroupIx, t.groups[g] = { s.groups[g] with
            state := .ready, active := s.remembered[g], flipPending := false, drainCount := 0 }) ∧
          t = { u with
            mode := .run, armOption := some .keep, groups := t.groups, regions := t.regions, port := t.port
            events := raised s.events [
              { kind := .refused, cause := some .shield, address := some a, value := some (BitVec.ofNat 64 w.tag.val) },
              { kind := .armed, cause := some .keep }]
            link := linkAfter (.arm 2 fill) 0x00#8 [2, 2, 0, 0] }) ∧
        (code = 1 → t = { u with
          mode := .starting, armOption := some .scrubAll, regions := t.regions, port := t.port
          scrub := { engine := if s.port.state = .up then .offering else .paused, jobs := startupJobs s.regions }
          events := s.events.raise
            { kind := .refused, cause := some .shield, address := some a, value := some (BitVec.ofNat 64 w.tag.val) }
          link := linkAfter (.arm 1 fill) 0x00#8 [1, 1, BitVec.ofNat 8 (startupJobs s.regions).length, 0] })

/-- DISARM discards the job list; an issued scrub write stays outstanding with no job, and every other request stays as it is
(`withoutJob`; R107). In STARTING the mode is BYPASS at
once and DISARMED is raised (R163). In RUN the mode is STOPPING while the merge path holds something, with groups, queue, hold list
and events untouched; with nothing left, it is BYPASS in the same step, the groups OFF, their active banks remembered, and DISARMED
raised (R69, R164, R166). An issued write without a job is the form of log 18. The judgement of the end of STOPPING, which other
statements name (`judgeStopping`), does the same in STOPPING with nothing left of the merge path, and else nothing (R166). -/
def Obligations.DisarmLeavesRun : Prop :=
  (∀ s : State, (¬(s.mode = .stopping ∧ RunDown s) → s.judgeStopping = s) ∧
    (s.mode = .stopping → RunDown s → ∃ t, s.judgeStopping = t ∧
      (∀ g : GroupIx, t.groups[g] = { s.groups[g] with state := .off, flipPending := false, drainCount := 0 } ∧
        t.remembered[g] = s.groups[g].active) ∧
      t = { s with
        mode := .bypass, armOption := none, groups := t.groups, remembered := t.remembered
        events := s.events.raise { kind := .disarmed } })) ∧
  ∀ s : State, Listens s .disarm → s.mode = .starting ∨ s.mode = .run → ∃ t, exec .disarm s = .next t ∧
    t.scrub = { engine := .idle, jobs := [] } ∧
    t.port = { s.port with
      outstanding := s.port.outstanding.map fun o => { o with owner := withoutJob o.owner }
      starvation := if s.scrub.engine = .offering then 0 else s.port.starvation } ∧
    (s.mode = .starting → t = { s with
      mode := .bypass, armOption := none, scrub := t.scrub, port := t.port
      events := s.events.raise { kind := .disarmed }, link := linkAfter .disarm 0x00#8 [0, 0] }) ∧
    (s.mode = .run → ¬RunDown s →
      t = { s with mode := .stopping, scrub := t.scrub, port := t.port, link := linkAfter .disarm 0x00#8 [3, 0] }) ∧
    (s.mode = .run → RunDown s →
      (∀ g : GroupIx, t.groups[g] = { s.groups[g] with state := .off, flipPending := false, drainCount := 0 } ∧
        t.remembered[g] = s.groups[g].active) ∧
      t = { s with
        mode := .bypass, armOption := none, groups := t.groups, remembered := t.remembered, scrub := t.scrub, port := t.port
        events := s.events.raise { kind := .disarmed }, link := linkAfter .disarm 0x00#8 [0, 0] })

/-! ### Groups (Chapter 4) -/

/-- GROUP_SET sets the pin-driven field of one group and nothing else but the link, in every mode; an index above 3 or a code above
01H gives BAD_ARGUMENT with its number and no effect (R93, R177). The filling byte of one-byte data is log 14. -/
def Obligations.GroupSetSetsPinDriven : Prop :=
  ∀ (s : State) (group pin : Byte),
    (∀ g : GroupIx, group.toNat = g.val → pin.toNat ≤ 1 → Answered (.groupSet group pin) s
      { s with groups := s.groups.set g { s.groups[g] with pinDriven := pin == 1 } } 0x00#8 []) ∧
    (3 < group.toNat → Answered (.groupSet group pin) s s 0x03#8 [1, 0]) ∧
    (group.toNat ≤ 3 → 1 < pin.toNat → Answered (.groupSet group pin) s s 0x03#8 [2, 0])

/-- FLIP in RUN of a group at a cut point takes the flip: the group record swaps its bank, opens its epoch and drains, or is HELD at
once with FLIP_DONE when no entry is left behind; the response is TAKEN with the new epoch (R71, R76). The other bank of A is B, and
that of B is A (R66). -/
def Obligations.FlipTakenAtCutPoint : Prop :=
  (Bank.a.other = .b ∧ Bank.b.other = .a) ∧
  ∀ (s : State) (g : GroupIx) (fill : Byte), s.mode = .run → AtCutPoint s g →
    Answered (.flip (BitVec.ofNat 8 g.val) fill) s
      { s with
        groups := s.groups.set g (flipped s g)
        events := raised s.events (if drainOnFlip s g = 0 then [doneAtFlip s g] else []) }
      0x00#8 [0, 0, (s.groups[g].epoch + 1).extractLsb' 8 8, (s.groups[g].epoch + 1).extractLsb' 0 8]

/-- FLIP that takes no flip: in RUN a group that must wait has its flip pending, or already pending, and answers PENDING with the
current epoch (R71, R73); a DRAINING or HELD group answers REFUSED_STATE with the state found and raises FLIP_MISSED with source
COMMAND (R74). Another mode answers WRONG_MODE and an index above 3 BAD_ARGUMENT 1, without an event (R177). The filling byte of
one-byte data is log 14. -/
def Obligations.FlipPendingOrRefused : Prop :=
  ∀ (s : State) (group fill : Byte),
    (∀ g : GroupIx, group.toNat = g.val → s.mode = .run → WaitsForFlip s g → Answered (.flip group fill) s
      { s with groups := s.groups.set g { s.groups[g] with flipPending := true } }
      0x00#8 [1, 0, s.groups[g].epoch.extractLsb' 8 8, s.groups[g].epoch.extractLsb' 0 8]) ∧
    (∀ g : GroupIx, group.toNat = g.val → s.mode = .run → s.groups[g].state = .draining ∨ s.groups[g].state = .held →
      Answered (.flip group fill) s
        { s with
          events := s.events.raise
            { kind := .flipMissed, group := some g, state := some (.group s.groups[g].state), cause := some .command } }
        0x02#8 [s.groups[g].state.code, 0]) ∧
    (group.toNat ≤ 3 → s.mode ≠ .run → Answered (.flip group fill) s s 0x01#8 [s.mode.code, 0]) ∧
    (3 < group.toNat → Answered (.flip group fill) s s 0x03#8 [1, 0])

/-- A rising edge on FLIP in RUN reaches every pin-driven group, each by its own state and independently of the others; nothing but
group records and events changes. Outside RUN the edge has no effect (R72). FLIP_MISSED records come in ascending group order (R74);
that FLIP_DONE records take their place in the same order is log 25. The law of R67 keeps a group from being OFF in RUN. -/
def Obligations.FlipEdgeReachesPinDrivenGroups : Prop :=
  ∀ s : State, s.resetAsserted = false →
    (s.mode ≠ .run → exec .flipEdge s = .next s) ∧
    (s.mode = .run → (∀ g : GroupIx, s.groups[g].state ≠ .off) → ∃ t, ∃ reports : GroupIx → List Report,
      exec .flipEdge s = .next t ∧ (∀ g : GroupIx, EdgeOutcome s g t.groups[g] (reports g)) ∧
      t = { s with
        groups := t.groups
        events := raised s.events (reports 0 ++ reports 1 ++ reports 2 ++ reports 3) })

/-- RELEASE of a HELD group in RUN. With an enabled region: one job for each of them, in ascending region index, for the held
bank, joins the list, the group is CLEANING, and an IDLE engine takes the first job up (R85, R86, R97). With none, and no flip
pending: READY, BANK_READY and DONE with 0 jobs (R85, R88). That the jobs start while words of an earlier live read of the bank
stand offered is log 27. -/
def Obligations.ReleaseOfHeldGroup : Prop :=
  ∀ (s : State) (g : GroupIx) (group fill : Byte) (jobs : List ScrubJob), group.toNat = g.val → s.mode = .run →
    s.groups[g].state = .held →
    jobs = (allRegions.filter fun ix => s.regions[ix].enabled && s.regions[ix].group = some g).map (fun ix => {
      region := ix, bank := s.groups[g].active.other, base := s.regions[ix].bankBase s.groups[g].active.other
      size := s.regions[ix].size * 512, pattern := s.regions[ix].patternWord, cursor := 0, failed := 0, firstFailed := none }) →
    (jobs ≠ [] → Answered (.release group fill) s
      { s with
        groups := s.groups.set g { s.groups[g] with state := .cleaning }
        scrub := {
          engine := if s.scrub.engine = .idle then (if s.port.state = .up then .offering else .paused) else s.scrub.engine
          jobs := s.scrub.jobs ++ jobs } }
      0x00#8 [BitVec.ofNat 8 jobs.length, 0]) ∧
    (jobs = [] → s.groups[g].flipPending = false → Answered (.release group fill) s
      { s with
        groups := s.groups.set g { s.groups[g] with state := .ready }
        events := s.events.raise { kind := .bankReady, group := some g, bank := some s.groups[g].active.other } }
      0x00#8 [0, 0])

/-! ### Events and ATTN (Chapter 8) -/

/-- A raised record is stored at the young end with the counter's serial and the loss mark, which is then cleared, or is dropped with
the loss mark set when 32 are held (R145). Every command but EVENT_TAKE, ATTN_MASK_SET and RESET changes the event block only by
raising records, one after another (R148). -/
def Obligations.RaiseStoresOrDrops : Prop :=
  (∀ (b : EventBlock) (r : Report),
    (b.queue.length ≤ 31 →
      (b.raise r).queue = b.queue ++ [{ serial := b.serial, lossBefore := b.loss, report := r }] ∧
      (b.raise r).serial = b.serial + 1 ∧ (b.raise r).loss = false ∧ (b.raise r).mask = b.mask ∧
      ((b.raise r).attn = true ↔ ∃ e ∈ (b.raise r).queue, b.mask.getLsbD e.report.kind.code = false)) ∧
    (32 ≤ b.queue.length → b.raise r = { b with loss := true })) ∧
  ∀ (c : Instr) (s t : State), c ≠ .eventTake → (∀ high low, c ≠ .attnMaskSet high low) → c ≠ .reset → exec c s = .next t →
    ∃ reports, t.events = raised s.events reports

/-- EVENT_TAKE, in every mode, removes the head record and returns it, in the bytes of the event record layout, with the number
left, ATTN following; an empty queue is answered EMPTY and nothing changes. Serial counter, loss mark and mask are kept, and
everything else but the link. STATUS reports the number held and the loss mark without removing anything. The queue has no other
reader: any other command but RESET leaves every record in its place, and what it answers does not depend on what the records hold
(R150). -/
def Obligations.EventTakeRemovesHead : Prop :=
  ∀ s : State,
    (∀ e rest, s.events.queue = e :: rest → Listens s .eventTake → ∃ t, exec .eventTake s = .next t ∧
      (t.events.attn = true ↔ ∃ x ∈ rest, s.events.mask.getLsbD x.report.kind.code = false) ∧
      t = { s with
        events := { s.events with queue := rest, attn := t.events.attn }
        link := linkAfter .eventTake 0x00#8 (eventBytes e ++ [BitVec.ofNat 8 rest.length, 0]) }) ∧
    (s.events.queue = [] → Answered .eventTake s s 0x06#8 []) ∧
    (∃ data, Answered .status s s 0x00#8 data ∧
      data[8]? = some (BitVec.ofNat 8 s.events.queue.length) ∧ data[9]? = some (if s.events.loss then 1 else 0)) ∧
    (∀ c t, c ≠ .eventTake → c ≠ .reset → exec c s = .next t → ∃ stored, t.events.queue = s.events.queue ++ stored) ∧
    (∀ c t u (others : List EventRecord), c ≠ .eventTake → others.length = s.events.queue.length → exec c s = .next t →
      exec c { s with events := { s.events with queue := others } } = .next u → u.link = t.link)

/-- The attention mask (R152). After RESET every kind is unmasked. ATTN_MASK_SET replaces the whole mask, bits 12-15 ignored (R181),
and ATTN follows at once (R153); nothing else but the link changes. ATTN_MASK_READ answers the mask as held. Every other command
keeps the mask. A record is raised, stored or dropped, numbered, counted and taken alike under every mask. -/
def Obligations.AttnMaskSetReplacesMask : Prop :=
  ∀ s : State,
    (∃ t, exec .reset s = .next t ∧ ∀ kind : EventKind, t.events.mask.getLsbD kind.code = false) ∧
    (∀ high low : Byte, Listens s (.attnMaskSet high low) → ∃ t, exec (.attnMaskSet high low) s = .next t ∧
      (∀ k, k < 16 → t.events.mask.getLsbD k = (decide (k < 12) && (high ++ low).getLsbD k)) ∧
      (t.events.attn = true ↔ ∃ e ∈ s.events.queue, t.events.mask.getLsbD e.report.kind.code = false) ∧
      t = { s with
        events := { s.events with mask := t.events.mask, attn := t.events.attn }
        link := linkAfter (.attnMaskSet high low) 0x00#8 [] }) ∧
    Answered .attnMaskRead s s 0x00#8 [s.events.mask.extractLsb' 8 8, s.events.mask.extractLsb' 0 8] ∧
    (∀ c t, (∀ high low, c ≠ .attnMaskSet high low) → c ≠ .reset → exec c s = .next t → t.events.mask = s.events.mask) ∧
    (∀ (b : EventBlock) (r : Report), b = { s.events with mask := b.mask, attn := b.attn } →
      (b.raise r).queue = (s.events.raise r).queue ∧ (b.raise r).serial = (s.events.raise r).serial ∧
      (b.raise r).loss = (s.events.raise r).loss ∧
      (∀ t u, exec .eventTake s = .next t → exec .eventTake { s with events := b } = .next u →
        u.link = t.link ∧ u.events.queue = t.events.queue) ∧
      (∀ t u, exec .status s = .next t → exec .status { s with events := b } = .next u → u.link = t.link))

/-! ### The lane unit and the merge queue (Chapters 2 and 3) -/

/-- The result of an active lane by operation, 0 to M (R25), and its clamp verdict (R26): SAT_ADD clamps above M and SAT_SUB below 0,
or by the flag; a clamping lane's result is M or 0, the flag standing only with operand M; no other operation clamps. -/
def Obligations.LaneResultAndVerdict : Prop :=
  ∀ (w : LaneWidth) (m : Nat) (a : LaneOperand) (top : Nat), top = 2 ^ w.bits - 1 → m ≤ top → a.value ≤ top →
    (a.saturated = true → a.value = top) →
    laneResult .wrapAdd w m a.value = (m + a.value) % 2 ^ w.bits ∧
    laneResult .satAdd w m a.value = (if m + a.value ≤ top then m + a.value else top) ∧
    laneResult .satSub w m a.value = (if a.value ≤ m then m - a.value else 0) ∧
    laneResult .max w m a.value = max m a.value ∧ laneResult .min w m a.value = min m a.value ∧
    (∀ i, (laneResult .bitSet w m a.value).testBit i = (m.testBit i || a.value.testBit i)) ∧
    (∀ i, (laneResult .bitClear w m a.value).testBit i = (m.testBit i && !a.value.testBit i)) ∧
    laneResult .replace w m a.value = a.value ∧
    (∀ op, laneResult op w m a.value ≤ top) ∧
    (∀ n, 1 ≤ n → n ≤ top → (laneResult .wrapAdd w m (top - n + 1) + n) % 2 ^ w.bits = m) ∧
    (laneClamps .satAdd w m a = true ↔ top < m + a.value ∨ a.saturated = true) ∧
    (laneClamps .satSub w m a = true ↔ m < a.value ∨ a.saturated = true) ∧
    (∀ op, op ≠ .satAdd → op ≠ .satSub → laneClamps op w m a = false) ∧
    (laneClamps .satAdd w m a = true → laneResult .satAdd w m a.value = top) ∧
    (laneClamps .satSub w m a = true → laneResult .satSub w m a.value = 0)

/-- Composition is exact (R31): in each lane, an entry formed from the contributions `c :: cs` in their order gives at write-back the
result of the separate merges, in that order, of those contributions in which the lane is active, and clamps exactly when one of those
merges would have; a lane active in none of them is outside the active set. A lane is active in a word when the mask bit of each of
its bytes is 1 (R22). -/
def Obligations.CompositionIsExact : Prop :=
  ∀ (op : Operation) (w : LaneWidth) (m k : Nat) (c : WriteWord) (cs : List WriteWord) (lanes : List (Option LaneOperand))
    (operands : List Nat), m < 2 ^ w.bits → k < w.lanes →
    lanes = (cs.map (contributionLanes w)).foldl (joinLanes op w) (contributionLanes w c) →
    operands = ((c :: cs).filter fun x => LaneFull w x.mask k).map (fun x => laneValue w x.data k) →
      (operands = [] → lanes[k]? = some none) ∧
      (operands ≠ [] → ∃ lane, lanes[k]? = some (some lane) ∧
        (laneResult op w m lane.value, laneClamps op w m lane) = operands.foldl (mergeOnce op w) (m, false))

/-- The word written back holds each active lane's result in that lane and the value read in every other lane (R24). A word has 8, 4,
2 or 1 lanes, of 8 bits for each of their bytes; the value of lane k is the number whose bits are those of the lane's bytes, the
lowest-addressed one least significant (R21). -/
def Obligations.WriteBackWordByLanes : Prop :=
  (∀ (w : LaneWidth) (word : Word64) (k : Nat), w.bits = 8 * laneBytes w ∧ w.lanes * laneBytes w = 8 ∧
    laneValue w word k < 2 ^ w.bits ∧
    ∀ i, i < 8 * laneBytes w → (laneValue w word k).testBit i = word.getLsbD (8 * (laneBytes w * k) + i)) ∧
  ∀ (e : MergeEntry) (data : Word64) (k : Nat), e.lanes.length = e.width.lanes → k < e.width.lanes →
    (∀ a ∈ e.lanes, ∀ x ∈ a, x.value < 2 ^ e.width.bits) →
      laneValue e.width (writeBackWord e data) k =
        match e.lanes[k]? with
        | some (some a) => laneResult e.operation e.width (laneValue e.width data k) a.value
        | _ => laneValue e.width data k

/-- A contribution forms its address from the bank the group then has active, joins the youngest entry for its word if that is
WAITING and not pinned, and is else appended with the group's bank and epoch, unless all 16 positions are in use (R41, R42, R43,
R44). Nothing but the queue and the model's stamp counter changes. Stamps are the model's own (log 7). -/
def Obligations.ContributionJoinsOrAppends : Prop :=
  ∀ (s : State) (ix : RegionIx) (offset : Addr) (word : WriteWord) (bank : Bank) (a : Addr),
    bank = bankNow s ix → a = s.regions[ix].bankBase bank + offset →
    (∀ older e younger, s.merge.queue = older ++ e :: younger → (∀ x ∈ older, x.stamp ≠ e.stamp) → (∀ x ∈ younger, x.stamp ≠ e.stamp) →
      e.addr = a → (∀ x ∈ younger, x.addr ≠ a) → e.state = .waiting → e.pinned = false →
        s.contribute ix offset word = some { s with merge := { s.merge with
          queue := older ++ { e with
            lanes := joinLanes e.operation e.width e.lanes (contributionLanes s.regions[ix].width word)
            count := min 65535 (e.count + 1) } :: younger } }) ∧
    ((∀ older e younger, s.merge.queue = older ++ e :: younger → e.addr = a → (∀ x ∈ younger, x.addr ≠ a) →
        e.state ≠ .waiting ∨ e.pinned = true) →
      (s.merge.queue.length < 16 → s.contribute ix offset word = some { s with merge := { s.merge with
        queue := s.merge.queue ++ [{
          stamp := s.merge.nextStamp, addr := a, region := ix, group := s.regions[ix].group, bank := bank
          epoch := s.regions[ix].group.map fun g => s.groups[g].epoch
          operation := s.regions[ix].operation, width := s.regions[ix].width
          lanes := contributionLanes s.regions[ix].width word, count := 1, pinned := false, state := .waiting }]
        nextStamp := s.merge.nextStamp + 1 } }) ∧
      (16 ≤ s.merge.queue.length → s.contribute ix offset word = none))

/-- CONTRIBUTION presents the word at the intake's position: it stalls the intake when it cannot be taken; taken with words left it
leaves the intake TAKING at the next word whose mask is not 00H (R44, R120). While the port is FAILED the entry appended is removed
at once with PORT_DOWN and UNCHANGED (R53, R137). The stamp is the model's own (log 7). That it does the same in STOPPING, where a
write that was open at DISARM may so append and stall, is the model's choice between R64 and R46, R157, R165 (log 24). -/
def Obligations.ContributionStallsOrGoesOn : Prop :=
  ∀ (s : State) (w : LiveWrite) (stalled : Bool) (word : WriteWord) (offset : Addr), s.resetAsserted = false →
    s.host.intake = .liveWrite w stalled → w.words[w.position]? = some word →
    offset = w.offset + BitVec.ofNat 32 (8 * w.position) →
    (s.port.state ≠ .failed → s.contribute w.region offset word = none →
      exec .contribution s = .next { s with host := { s.host with intake := .liveWrite w true } }) ∧
    (∀ i later, w.position < i → w.words[i]? = some later → later.mask ≠ 0 →
      (∀ j, w.position < j → j < i → ∀ x ∈ w.words[j]?, x.mask = 0) →
        (∀ u, s.port.state ≠ .failed → s.contribute w.region offset word = some u → exec .contribution s = .next { s with
          merge := u.merge, host := { s.host with intake := .liveWrite { w with position := i } false } }) ∧
        (FailedPort s → exec .contribution s = .next { s with
          host := { s.host with intake := .liveWrite { w with position := i } false }
          merge := { s.merge with nextStamp := s.merge.nextStamp + 1 }
          events := s.events.raise (downReport (appendedEntry s w.region offset word)) }))

/-- The last contribution of a LIVE write, once taken: OK is sent, the tag leaves the outstanding set, the intake is IDLE, and a
flip pending in a READY group of the region is taken then, the entry just taken counted (R77, R120). While the port is FAILED the
entry is then removed at once with MEM_FAULT, and the group so flipped is HELD with FLIP_DONE (R53, R79, R137, R148). That it does
the same in STOPPING, where it may append, is the model's choice between R64 and R46, R157, R165 (log 24); the end of STOPPING is
judged last (R166; log 12). The log of responses is log 8. -/
def Obligations.ContributionFinishesWrite : Prop :=
  ∀ (s : State) (w : LiveWrite) (stalled : Bool) (word : WriteWord) (offset : Addr), s.resetAsserted = false →
    s.host.intake = .liveWrite w stalled → w.words[w.position]? = some word →
    offset = w.offset + BitVec.ofNat 32 (8 * w.position) → (∀ j, w.position < j → ∀ x ∈ w.words[j]?, x.mask = 0) →
    (∀ u, s.port.state ≠ .failed → s.contribute w.region offset word = some u → ∃ t, exec .contribution s = .next t ∧
      t.host = { s.host with intake := .idle, records := s.host.records.filter fun r => r.tag ≠ w.tag } ∧
      t.sent = sentHost s { tag := w.tag, status := .ok, data := [] } ∧ t.merge = u.merge ∧
      (∀ g : GroupIx, s.regions[w.region].group = some g → s.groups[g].state = .ready → s.groups[g].flipPending = true →
        t.groups = s.groups.set g (flipped u g) ∧
          t.events = raised s.events (if drainOnFlip u g = 0 then [doneAtFlip s g] else [])) ∧
      ((∀ g : GroupIx, s.regions[w.region].group = some g → s.groups[g].state = .ready → s.groups[g].flipPending = false) →
        t.groups = s.groups ∧ t.events = s.events) ∧
      t = { s with host := t.host, merge := t.merge, sent := t.sent, groups := t.groups, events := t.events }) ∧
    (FailedPort s → ∃ t : State, exec .contribution s = .next t.judgeStopping ∧
      t.host = { s.host with intake := .idle, records := s.host.records.filter fun r => r.tag ≠ w.tag } ∧
      t.sent = sentHost s { tag := w.tag, status := .ok, data := [] } ∧
      t.merge = { s.merge with nextStamp := s.merge.nextStamp + 1 } ∧
      (∀ g : GroupIx, s.regions[w.region].group = some g → s.groups[g].state = .ready → s.groups[g].flipPending = true →
        t.groups = s.groups.set g (heldAfterFlip s g) ∧
          t.events = raised s.events [downReport (appendedEntry s w.region offset word), doneAtFlip s g]) ∧
      ((∀ g : GroupIx, s.regions[w.region].group = some g → s.groups[g].state = .ready → s.groups[g].flipPending = false) →
        t.groups = s.groups ∧ t.events = s.events.raise (downReport (appendedEntry s w.region offset word))) ∧
      t = { s with host := t.host, merge := t.merge, sent := t.sent, groups := t.groups, events := t.events })

/-- A stalled LIVE read presented again, with a place free in the hold list: it is taken direct when no entry of the queue is for
one of its words, else held behind those entries, each pinned (R57, R59, R61). While 4 reads are held it stays stalled (log 26).
Taken direct while the port is FAILED, every word of it fails, and the FAULT response is sent at once (R122, R137). That a read
taken direct ends STOPPING, when nothing else is left, is log 12: R166's list of events does not name this one. Stamps are log 7,
the log of responses log 8, the number of words awaited log 9, the place of the offered words log 10. -/
def Obligations.StalledReadPresentedAgain : Prop :=
  ∀ (s : State) (r : LiveRead) (first : Addr), s.resetAsserted = false → s.host.intake = .liveRead r →
    first = s.regions[r.region].bankBase (bankNow s r.region) + r.offset →
    (s.port.state ≠ .failed → s.merge.hold.length < 4 →
      ((∀ e ∈ s.merge.queue, ¬Covers first r.length e.addr) →
        exec .stalledReadPresented s = .next (State.judgeStopping { s with
          host := { s.host with intake := .idle }
          port := { s.port with offered := s.port.offered ++ (List.range r.length).map (readWord r.tag first) } })) ∧
      ((∃ e ∈ s.merge.queue, Covers first r.length e.addr) →
        exec .stalledReadPresented s = .next { s with
          host := { s.host with intake := .idle }
          merge := {
            queue := s.merge.queue.map fun e => if Covers first r.length e.addr then { e with pinned := true } else e
            hold := s.merge.hold ++ [{
              stamp := s.merge.nextStamp, tag := r.tag, first := first, length := r.length
              blockers := (s.merge.queue.filter fun e => Covers first r.length e.addr).map MergeEntry.stamp
              state := .blocked, issued := 0 }]
            nextStamp := s.merge.nextStamp + 1 } })) ∧
    (4 ≤ s.merge.hold.length → exec .stalledReadPresented s = .next s) ∧
    (FailedPort s → 1 ≤ r.length → HasRecord s r.tag (openedRecord r.tag .read .live r.length r.length) →
      exec .stalledReadPresented s = .next (State.judgeStopping { s with
        host := { s.host with intake := .idle, records := s.host.records.filter fun x => x.tag ≠ r.tag }
        sent := sentHost s (readFailed r.tag r.length) }))

/-- An entry that leaves the queue (R55): its place closes up, it leaves every blocker set, a read left with no blocker is RELEASED
and its words are offered in hold-list order, and a DRAINING group whose left bank it targets counts one less and is HELD at 0.
MEM_FAULT, for a fault, comes before FLIP_DONE (R148). Stamps are the model's own (log 7), and so is the place of the offered words
(log 10). -/
def Obligations.EntryRemovalEffects : Prop :=
  ∀ (s : State) (e : MergeEntry) (fault : Option (Cause × ReportedState)) (older younger : List MergeEntry),
    s.merge.queue = older ++ e :: younger → (∀ x ∈ older, x.stamp ≠ e.stamp) → ∃ t, s.removeEntry e fault = t ∧
      t.merge.queue = older ++ younger ∧ t.merge.nextStamp = s.merge.nextStamp ∧
      t.merge.hold = s.merge.hold.map (fun h => { h with
        blockers := h.blockers.filter (fun k => k ≠ e.stamp)
        state := if (h.blockers.filter fun k => k ≠ e.stamp) = [] then .released else h.state }) ∧
      t.port = { s.port with offered := s.port.offered ++
        (s.merge.hold.filter fun h => h.state = .blocked && (h.blockers.filter fun k => k ≠ e.stamp) = []).flatMap fun h =>
          (List.range h.length).map (readWord h.tag h.first) } ∧
      (∀ g : GroupIx, e.group = some g → s.groups[g].state = .draining → e.bank ≠ s.groups[g].active →
        (s.groups[g].drainCount ≤ 1 →
          t.groups = s.groups.set g { s.groups[g] with state := .held, drainCount := 0 } ∧
          t.events = raised s.events ((fault.toList.map fun f => faultReport e f.1 f.2) ++
            [{ kind := .flipDone, group := some g, epoch := some (s.groups[g].epoch - 1), bank := some s.groups[g].active.other }])) ∧
        (2 ≤ s.groups[g].drainCount →
          t.groups = s.groups.set g { s.groups[g] with drainCount := s.groups[g].drainCount - 1 } ∧
          t.events = raised s.events (fault.toList.map fun f => faultReport e f.1 f.2))) ∧
      ((∀ g : GroupIx, e.group = some g → s.groups[g].state = .draining → e.bank = s.groups[g].active) →
        t.groups = s.groups ∧ t.events = raised s.events (fault.toList.map fun f => faultReport e f.1 f.2)) ∧
      t = { s with merge := t.merge, port := t.port, groups := t.groups, events := t.events }

/-! ### The memory port (Chapter 7) -/

/-- PORT_SET stores both settings and reports them, in every mode and port state; a timeout of 0, then a share outside 2-16, gives
BAD_ARGUMENT with its number and no effect (R140, R177). The filling byte of one-byte data is log 14. -/
def Obligations.PortSetStoresSettings : Prop :=
  ∀ (s : State) (timeout share : Byte),
    (1 ≤ timeout.toNat → 2 ≤ share.toNat → share.toNat ≤ 16 → Answered (.portSet timeout share) s
      { s with port := { s.port with timeout := timeout.toNat, share := share.toNat } } 0x00#8 [timeout, share]) ∧
    (timeout.toNat = 0 → Answered (.portSet timeout share) s s 0x03#8 [1, 0]) ∧
    (1 ≤ timeout.toNat → share.toNat < 2 ∨ 16 < share.toNat → Answered (.portSet timeout share) s s 0x03#8 [2, 0])

/-- PORT_RECOVER on a FAILED port raises the probe number, sends the PROBE and enters RECOVERING with the probe's deadline; on
another port it is answered REFUSED_STATE (R138). The answer to the current probe brings a RECOVERING port UP with PORT_RECOVERED,
and the scrub engine goes on with its active job (R139). Any other PROBE response is discarded, on a port that is UP too, where the
oldest request keeps waiting; a PROBE response told as RESPONSE_TAKEN is the same (log 20). A READ or WRITE response is discarded
while the port is FAILED or RECOVERING, and while the list is empty. A discarded response changes no state (R129). The moment is an
operand (log 3), the log of requests log 8. The filling byte of one-byte data is log 14. -/
def Obligations.ProbeAndRecovery : Prop :=
  ∀ (s : State) (now : Nat) (number : Byte),
    (s.port.state = .failed → Answered (.portRecover now) s
      { s with
        port := { s.port with state := .recovering (now + s.port.timeout), probeNumber := s.port.probeNumber + 1 }
        sent := { s.sent with memory := s.sent.memory ++ [.probe (s.port.probeNumber + 1)] } } 0x00#8 []) ∧
    (s.port.state ≠ .failed → Answered (.portRecover now) s s 0x02#8 [if s.port.state = .up then 0 else 2, 0]) ∧
    (∀ c, (c = .probeAnswered number ∨ ∃ arrival, c = .responseTaken (.probe number) arrival) →
      (∀ deadline, s.resetAsserted = false → s.port.state = .recovering deadline → number = s.port.probeNumber →
        exec c s = .next { s with
          port := { s.port with state := .up }
          scrub := { s.scrub with engine := if s.scrub.jobs = [] then s.scrub.engine else .offering }
          events := s.events.raise { kind := .portRecovered } }) ∧
      ((∀ deadline, s.port.state = .recovering deadline → number ≠ s.port.probeNumber) → exec c s = .next s)) ∧
    (s.port.state ≠ .up ∨ s.port.outstanding = [] → ∀ (m : MemResponse) (arrival : Arrival),
      ((∃ ok data, m = .read ok data) ∨ ∃ ok, m = .write ok) → exec (.responseTaken m arrival) s = .next s)

/-- The deadline of the oldest request passes (R135), or that of the probe (R139), and the port enters FAILED (R136). PORT_FAILED
comes first, with cause TIMEOUT, the request's address and the number failed, or with cause PROBE and count 0 (R141). Then every
outstanding request fails in issue order, the first with TIMEOUT and the others with PORT_DOWN. An OFFERING scrub engine is
PAUSED, and the starvation count is 0. At last every request standing offered fails in the arbiter's order (`OffersInOrder`:
write-backs, pass-through words, reads of eligible entries). Each failure has its
effect on the merge queue, the hold list, the records, the groups and the scrub engine, and what it leads to be offered fails at
once (`Fails`, `FailsAll`; R53, R103, R122, R137; log 11). The end of STOPPING is judged last (log 12). With no such deadline,
neither event has an effect. An answer behind which the deadline of the next request has passed and its own response has not
arrived is followed by that request's timeout (R135). The event itself says that the deadline has passed (log 3). Several
responses that become ready in this one step leave in either order by R111: that they are sent as their words complete is the model's
choice (log 17, unsafe for the order of two of them). Stamps are log 7, the log of responses log 8, the words that a response awaits
log 9, the place of offered words log 10, a scrub write without a job log 18. -/
def Obligations.PassedDeadlineFailsPort : Prop :=
  ∀ s : State, s.resetAsserted = false →
    (ShieldLaw s → ∀ o rest, s.port.state = .up → s.port.outstanding = o :: rest →
      ∃ (u v t : State) (last : List Failing) (later : List Report),
      FailsAll
        { s with
          port := { s.port with state := .failed, outstanding := [], offered := [] }
          events := s.events.raise
            { kind := .portFailed, cause := some .timeout, address := some o.addr, count := some s.port.outstanding.length } }
        (.outstanding o .timeout :: rest.map fun x => .outstanding x .portDown) u ∧
      v = { u with
        scrub := { u.scrub with engine := if u.scrub.engine = .offering then .paused else u.scrub.engine }
        port := { u.port with offered := s.port.offered, starvation := 0 } } ∧
      OffersInOrder v last ∧ FailsAll { v with port := { v.port with offered := [] } } last t ∧
      exec .responseTimeout s = .next t.judgeStopping ∧
      t.port = { s.port with state := .failed, outstanding := [], offered := [], starvation := 0 } ∧
      t.events = raised s.events
        ({ kind := .portFailed, cause := some .timeout, address := some o.addr, count := some s.port.outstanding.length } :: later) ∧
      t.regions = s.regions ∧ t.remembered = s.remembered ∧ t.link = s.link ∧ t.sent.memory = s.sent.memory) ∧
    (s.port.state ≠ .up ∨ s.port.outstanding = [] → exec .responseTimeout s = .next s) ∧
    (ShieldLaw s → ∀ deadline, s.port.state = .recovering deadline → s.port.outstanding = [] →
      ∃ (v t : State) (last : List Failing) (later : List Report),
      v = { s with
        scrub := { s.scrub with engine := if s.scrub.engine = .offering then .paused else s.scrub.engine }
        port := { s.port with state := .failed, starvation := 0 }
        events := s.events.raise { kind := .portFailed, cause := some .probe, count := some 0 } } ∧
      OffersInOrder v last ∧ FailsAll { v with port := { v.port with offered := [] } } last t ∧
      exec .probeTimeout s = .next t.judgeStopping ∧
      t.port = { s.port with state := .failed, offered := [], starvation := 0 } ∧
      t.events = raised s.events ({ kind := .portFailed, cause := some .probe, count := some 0 } :: later) ∧
      t.regions = s.regions ∧ t.remembered = s.remembered ∧ t.link = s.link ∧ t.sent.memory = s.sent.memory) ∧
    ((∀ deadline, s.port.state ≠ .recovering deadline) → exec .probeTimeout s = .next s) ∧
    (∀ (o p : Outstanding) (rest : List Outstanding) (m : MemResponse) (now : Nat) (u : State), s.port.state = .up →
      s.port.outstanding = o :: p :: rest → p.deadline < now → ((∃ ok data, m = .read ok data) ∨ ∃ ok, m = .write ok) →
      exec (.responseTaken m { moment := now, nextArrived := true }) s = .next u →
      exec (.responseTaken m { moment := now, nextArrived := false }) s = exec .responseTimeout u)

/-- A grant to the scrub write, owed its share or with nothing else offered: the pattern word goes down to the word at the cursor
with a full mask, the engine is ISSUED, the starvation count 0 (R101, R131, R132). The moment is an operand (log 3), the log of
requests log 8, and stamps are log 7. That it may pass words of a live read of the bank is log 27. The end of STOPPING is judged
last (log 12). -/
def Obligations.GrantToScrub : Prop :=
  ∀ (s : State) (now : Nat) (j : ScrubJob) (jobs : List ScrubJob), s.resetAsserted = false → s.port.state = .up →
    s.port.outstanding.length < 8 →
    s.scrub = { engine := .offering, jobs := j :: jobs } →
    s.port.share ≤ s.port.starvation + 1 ∨
      NothingOffered s →
      exec (.grant now) s = .next (State.judgeStopping
        { granted s (.scrubWrite (some { region := j.region, bank := j.bank })) (j.base + BitVec.ofNat 32 (8 * j.cursor))
            (.write (j.base + BitVec.ofNat 32 (8 * j.cursor)) 0xFF#8 j.pattern) now 0 with
          scrub := { engine := .issued, jobs := j :: jobs } })

/-- A grant to the merge engine: the oldest unissued write-back first, and the oldest eligible read only while no pass-through
word stands offered; the entry's write-back is issued, or it enters READING (R48, R49, R131). An entry is eligible when it is
WAITING, no older entry for its word is in the queue, and no held read taken before it that covers its word is in the hold list
(R47). A merge read is granted to no other entry. Older and earlier are by the model's stamps (log 7); the moment is an operand
(log 3), and the log of requests is log 8. -/
def Obligations.GrantToMerge : Prop :=
  (∀ (s : State) (now : Nat) (older younger : List MergeEntry) (e : MergeEntry), s.resetAsserted = false → s.port.state = .up →
    s.port.outstanding.length < 8 → ShareNotOwed s → s.merge.queue = older ++ e :: younger →
    (s.scrub.engine = .offering → s.scrub.jobs ≠ []) →
    (∀ x ∈ older ++ younger, x.stamp ≠ e.stamp) →
    (∀ data result, e.state = .writing data result false → (∀ x ∈ older, ¬OffersWriteBack x) →
      exec (.grant now) s = .next { granted s (.mergeWrite e.stamp) e.addr (.write e.addr 0xFF#8 result) now (starved s) with
        merge := { s.merge with queue := older ++ { e with state := .writing data result true } :: younger } }) ∧
    ((∀ x ∈ s.merge.queue, ¬OffersWriteBack x) → s.port.offered = [] → e.state = .waiting →
      (∀ x ∈ s.merge.queue, x.stamp < e.stamp → x.addr ≠ e.addr) →
      (∀ h ∈ s.merge.hold, h.stamp < e.stamp →
        ¬(h.first.toNat ≤ e.addr.toNat ∧ e.addr.toNat < h.first.toNat + 8 * h.length)) →
      (∀ x ∈ older, ¬MayBeRead s x) →
      exec (.grant now) s = .next { granted s (.mergeRead e.stamp) e.addr (.read e.addr) now (starved s) with
        merge := { s.merge with queue := older ++ { e with state := .reading } :: younger } })) ∧
  ∀ (s t : State) (now stamp : Nat) (o : Outstanding), exec (.grant now) s = .next t →
    t.port.outstanding = s.port.outstanding ++ [o] → o.owner = .mergeRead stamp →
    ∃ older e younger, s.merge.queue = older ++ e :: younger ∧ e.stamp = stamp ∧ o.addr = e.addr ∧ MayBeRead s e ∧
      (∀ x ∈ older, ¬MayBeRead s x) ∧ (∀ x ∈ s.merge.queue, ¬OffersWriteBack x) ∧ s.port.offered = []

/-- A grant to the first word of the pass-through sequence (R131). A READ word goes down to its address; a released read counts it
issued, and leaves the hold list with its last word (R60). The word of a PLAIN write goes down with the host's mask and data (R127).
With no word left, the intake is IDLE. Else the next word whose mask is not 00H is offered, unless it lies in a bank outside BYPASS:
it is then withheld, REFUSED with reason SHIELD is raised for its address, no further word is offered, the intake is IDLE, and the
response waits for the words already granted (R15, R119). The moment is log 3, the log of requests log 8, the number of words awaited
log 9, the place of the word offered next log 10, and the end of STOPPING log 12. -/
def Obligations.GrantToPassThrough : Prop :=
  ∀ (s : State) (now : Nat) (x : PassWord) (rest : List PassWord), s.resetAsserted = false → s.port.state = .up →
    s.port.outstanding.length < 8 → ShareNotOwed s → (s.scrub.engine = .offering → s.scrub.jobs ≠ []) →
    (∀ e ∈ s.merge.queue, ¬OffersWriteBack e) → s.port.offered = x :: rest →
    (x.write = none → ∀ u hold, u = granted s (.passRead x.tag x.index) x.addr (.read x.addr) now (starved s) →
      hold = (s.merge.hold.map fun h => if h.tag = x.tag then { h with issued := h.issued + 1 } else h).filter
        (fun h => !(h.tag = x.tag && h.length = x.index + 1)) →
      exec (.grant now) s = .next (State.judgeStopping
        { u with merge := { s.merge with hold := hold }, port := { u.port with offered := rest } })) ∧
    (∀ word w u, x.write = some word → s.host.intake = .plainWrite w → w.tag = x.tag →
      u = granted s (.passWrite x.tag x.index) x.addr (.write x.addr word.mask word.data) now (starved s) →
      ((∀ j, x.index < j → ∀ y ∈ w.words[j]?, y.mask = 0) →
        exec (.grant now) s = .next (State.judgeStopping
          { u with host := { s.host with intake := .idle }, port := { u.port with offered := rest } })) ∧
      (∀ i later a, x.index < i → w.words[i]? = some later → later.mask ≠ 0 →
        (∀ j, x.index < j → j < i → ∀ y ∈ w.words[j]?, y.mask = 0) → a = w.start + BitVec.ofNat 32 (8 * i) →
        (s.mode = .bypass ∨ inAnyBank s.regions a = false →
          exec (.grant now) s = .next (State.judgeStopping { u with
            host := { s.host with intake := .plainWrite { w with position := i } }
            port := { u.port with offered := rest ++ [{ tag := w.tag, index := i, addr := a, write := some later }] } })) ∧
        (∀ r n, s.mode ≠ .bypass → inAnyBank s.regions a = true → HasRecord s w.tag r →
          n = (w.words.take i).countP (fun y => y.mask ≠ 0) → r.completed < n →
          exec (.grant now) s = .next (State.judgeStopping { u with
            host := { s.host with
              intake := .idle
              records := s.host.records.map fun y => if y.tag = w.tag then { r with withheld := true, awaited := n } else y }
            port := { u.port with offered := rest }
            events := s.events.raise {
              kind := .refused, cause := some .shield, address := some a, value := some (BitVec.ofNat 64 w.tag.val) } }))))

/-- Read data returned OK for a merge read: the entry enters WRITING with the data and the word of the lane unit (R24, R50). Each
lane in ascending order raises CLAMP, if it clamps and the region's report lets it (never under OFF, always under EACH, under ONCE
for the lowest clamping lane when the last clamp epoch is not the entry's, 0 for an ungrouped region), and then WATCH, if it
crosses the threshold (R32, R33, R35, R36, R37). Under ONCE a write-back that clamps leaves the entry's epoch as the region's last
clamp epoch (R33, R34); else it stays. An answer that arrives at the moment of the next deadline is in time (log 3). Stamps are
log 7. -/
def Obligations.ReadDataEntersWriting : Prop :=
  ∀ (s : State) (now : Arrival) (stamp : Nat) (o : Outstanding) (rest : List Outstanding) (e : MergeEntry)
    (older younger : List MergeEntry) (data : Word64) (r : Region) (clamps crosses : Nat → Bool),
    Answers s o rest now → o.owner = .mergeRead stamp → s.merge.queue = older ++ e :: younger → e.stamp = stamp →
    (∀ x ∈ older ++ younger, x.stamp ≠ stamp) → r = s.regions[e.region] →
    (∀ k, k < e.width.lanes → (clamps k = true ↔ clampRaisedOn r e data k)) →
    (∀ k, k < e.width.lanes → (crosses k = true ↔ laneCrossesOn e r.threshold data k)) →
      exec (.responseTaken (.read true data) now) s = .next { withoutOldest s with
        regions := s.regions.set e.region { r with
          lastClamp := if r.clampReport = .once ∧ (List.range e.width.lanes).any (laneClampsOn e data) = true
            then some (e.epoch.getD 0) else r.lastClamp }
        merge := { s.merge with queue := older ++ { e with state := .writing data (writeBackWord e data) false } :: younger }
        events := raised s.events ((List.range e.width.lanes).flatMap fun k =>
          (if clamps k then [laneRecord .clamp e data k] else []) ++
            if crosses k then [laneRecord .watch e data k] else []) }

/-- The other answers to a merge request remove its entry: an acknowledged write-back retires it with no event; a read that is not
answered OK faults it with READ_ERROR and UNCHANGED, a write-back with WRITE_ERROR and INDETERMINATE, whatever the kind of the
response (R51, R52, R129). An answer that arrives at the moment of the next deadline is in time (log 3); the end of STOPPING is
judged last (R166; log 12). Stamps are log 7. -/
def Obligations.AnswerRemovesEntry : Prop :=
  ∀ (s : State) (now : Arrival) (stamp : Nat) (o : Outstanding) (rest : List Outstanding) (e : MergeEntry), Answers s o rest now →
    HasEntry s stamp e →
    (o.owner = .mergeWrite stamp → exec (.responseTaken (.write true) now) s =
      .next ((withoutOldest s).removeEntry e none).judgeStopping) ∧
    (o.owner = .mergeWrite stamp → ∀ m, (m = .write false ∨ ∃ ok data, m = .read ok data) → exec (.responseTaken m now) s =
      .next ((withoutOldest s).removeEntry e (some (.writeError, .indeterminate))).judgeStopping) ∧
    (o.owner = .mergeRead stamp → ∀ m, ((∃ data, m = .read false data) ∨ ∃ ok, m = .write ok) → exec (.responseTaken m now) s =
      .next ((withoutOldest s).removeEntry e (some (.readError, .unchanged))).judgeStopping)

/-- A pass-through word's answer completes that word of its record: the data of an OK read, a zero for a failed one; with the last
awaited word the response is sent, OK or FAULT or REFUSED for a withheld write, and the tag leaves the set (R118, R119, R122). The
end of STOPPING is judged after it (log 12). The number of words awaited is the model's own (log 9); the moment is log 3, the log of
responses log 8. -/
def Obligations.AnswerCompletesWord : Prop :=
  ∀ (s : State) (now : Arrival) (index : Nat) (o : Outstanding) (rest : List Outstanding) (tag : Tag) (r after : TxRecord)
    (m : MemResponse) (failed : Bool), Answers s o rest now → HasRecord s tag r →
    (o.owner = .passRead tag index ∧
        ((∃ d, m = .read true d ∧ failed = false ∧ after.data = r.data.set index (some d)) ∨
          (((∃ d, m = .read false d) ∨ ∃ ok, m = .write ok) ∧ failed = true ∧ after.data = r.data.set index (some 0)))) ∨
      (o.owner = .passWrite tag index ∧ r.data = [] ∧ after.data = [] ∧
        ((m = .write true ∧ failed = false) ∨ ((m = .write false ∨ ∃ ok d, m = .read ok d) ∧ failed = true))) →
    after = { r with completed := r.completed + 1, anyFailed := r.anyFailed || failed, data := after.data } →
    (after.completed < r.awaited → exec (.responseTaken m now) s = .next (State.judgeStopping { withoutOldest s with
      host := { s.host with records := s.host.records.map fun x => if x.tag = tag then after else x } })) ∧
    (after.completed = r.awaited → exec (.responseTaken m now) s = .next (State.judgeStopping { withoutOldest s with
      host := { s.host with records := s.host.records.filter fun x => x.tag ≠ tag }
      sent := sentHost s {
        tag := tag
        status := if r.withheld then .refused else if after.anyFailed then .fault else .ok
        data := if r.withheld then [] else after.data.map fun x => x.getD 0 } }))

/-- The answer to the scrub write moves the cursor of the active job past the word, a failed word counted and the first one's
address kept; with words left, the next write is offered (R102, R103). The answer to a write whose job was discarded has no effect
beyond its leaving the list (R107, R128); the end of STOPPING is judged then (log 12). A write without a job is the form of log
18; the moment is log 3. The write that fails with the port moves the cursor in the same way (`scrubDone`, which PassedDeadlineFailsPort
names) and leaves the engine PAUSED (R100, R103, R106). The last word of a job is LastJobMakesBankReady's. -/
def Obligations.AnswerMovesScrubCursor : Prop :=
  (∀ (s : State) (now : Arrival) (o : Outstanding) (rest : List Outstanding) (m : MemResponse) (failed : Bool),
    Answers s o rest now → (m = .write true ∧ failed = false) ∨ ((m = .write false ∨ ∃ ok d, m = .read ok d) ∧ failed = true) →
    (∀ job j jobs, o.owner = .scrubWrite (some job) → s.scrub.jobs = j :: jobs → j.cursor + 1 < j.size →
      exec (.responseTaken m now) s = .next (State.judgeStopping { withoutOldest s with scrub := {
        engine := .offering
        jobs := { j with
          cursor := j.cursor + 1
          failed := if failed then j.failed + 1 else j.failed
          firstFailed := if failed && j.firstFailed.isNone then some (j.base + BitVec.ofNat 32 (8 * j.cursor)) else j.firstFailed }
            :: jobs } })) ∧
    (o.owner = .scrubWrite none → exec (.responseTaken m now) s = .next (withoutOldest s).judgeStopping)) ∧
  ∀ (s : State) (j : ScrubJob) (jobs : List ScrubJob), s.port.state ≠ .up → s.scrub.jobs = j :: jobs → j.cursor + 1 < j.size →
    s.scrubDone true = { s with scrub := {
      engine := .paused
      jobs := { j with
        cursor := j.cursor + 1, failed := j.failed + 1
        firstFailed := if j.firstFailed.isNone then some (j.base + BitVec.ofNat 32 (8 * j.cursor)) else j.firstFailed } :: jobs } }

/-- The last word of the active job (R104): SCRUB_FAULT if a word failed, this one counted (R103, R105), the job leaves, and the next
job is active, or the engine is IDLE. The word is answered on a port that is UP, and the next job's write is offered; or it fails with
the port (`scrubDone`, which PassedDeadlineFailsPort names), and the engine is PAUSED with the next job (R100, R106). In both cases
(`JobCompletes`): in RUN a group with other jobs left goes on CLEANING; the last job of a CLEANING group makes it READY with
BANK_READY, and a pending flip is then taken, unless the intake is part-way through a live write of the group, where it stays pending
(R73, R75, R76, R87, R88). In STARTING the groups wait for the last job, which sets the mode to RUN and every group READY on bank A,
with ARMED (R68, R162). The moment is log 3. -/
def Obligations.LastJobMakesBankReady : Prop :=
  (∀ (s u : State) (now : Arrival) (o : Outstanding) (rest : List Outstanding) (job : JobName) (j : ScrubJob) (jobs : List ScrubJob)
    (m : MemResponse) (failed : Bool) (count : Nat) (faults : List Report), Answers s o rest now →
    o.owner = .scrubWrite (some job) → s.scrub.jobs = j :: jobs → j.cursor + 1 = j.size →
    (m = .write true ∧ failed = false) ∨ ((m = .write false ∨ ∃ ok d, m = .read ok d) ∧ failed = true) →
    count = j.failed + (if failed then 1 else 0) →
    faults = (if count = 0 then [] else [{
      kind := .scrubFault, region := some j.region, bank := some j.bank, count := some count
      address := if failed && j.firstFailed.isNone then some (j.base + BitVec.ofNat 32 (8 * j.cursor)) else j.firstFailed }]) →
    u = { withoutOldest s with scrub := { engine := if jobs = [] then .idle else .offering, jobs := jobs } } →
    JobCompletes s u j.region jobs faults fun t => exec (.responseTaken m now) s = .next t) ∧
  ∀ (s u : State) (j : ScrubJob) (jobs : List ScrubJob) (fault : Report), s.port.state ≠ .up → s.scrub.jobs = j :: jobs →
    j.cursor + 1 = j.size →
    fault = {
      kind := .scrubFault, region := some j.region, bank := some j.bank, count := some (j.failed + 1)
      address := if j.firstFailed.isNone then some (j.base + BitVec.ofNat 32 (8 * j.cursor)) else j.firstFailed } →
    u = { s with scrub := { engine := if jobs = [] then .idle else .paused, jobs := jobs } } →
    JobCompletes s u j.region jobs [fault] fun t => s.scrubDone true = t

/-! ### Host requests (Chapter 6) -/

/-- HOST_REQUEST. While the intake is not IDLE the request waits on the channel behind those there (R111; log 4); with nothing on the
channel nothing is taken. An IDLE intake takes the first on the channel. Refused at taking (R113, R115, R116): DUP_TAG before the
decode, then MALFORMED, then SHIELD for an ALIAS write and SNAP_WRITE for an open SNAP write, with one REFUSED record of the reason,
the start address and the tag. BUSY (R10, R91, R117): a closed LIVE or SNAP request, and an open SNAP read whose group is not HELD,
with no record. Nothing else changes. A request is decoded in the mode of the moment at which it is taken, so also one that meets the
end of STOPPING (R166; log 28). The log of responses is log 8. -/
def Obligations.HostRequestAnsweredAtTaking : Prop :=
  ∀ (s : State) (arriving : Option HostRequest),
    (s.resetAsserted = false → s.host.intake ≠ .idle →
      exec (.hostRequest arriving) s = .next (withChannel s (s.host.channel ++ arriving.toList))) ∧
    (s.host.intake = .idle → s.host.channel = [] → exec (.hostRequest none) s = .next s) ∧
    ∀ (r : HostRequest) (rest : List HostRequest), Takes s arriving r rest →
      (∀ reason,
        (¬TagFree s r.tag ∧ reason = .dupTag) ∨
          (TagFree s r.tag ∧ decodeRequest s.mode s.regions r = .malformed ∧ reason = .malformed) ∨
          (TagFree s r.tag ∧ (∃ ix, decodeRequest s.mode s.regions r = .aliasBank ix) ∧ (∃ ws, r.kind = .write ws) ∧
            reason = .shield) ∨
          (TagFree s r.tag ∧ (∃ ix off, decodeRequest s.mode s.regions r = .snap ix off true) ∧ (∃ ws, r.kind = .write ws) ∧
            reason = .snapWrite) →
        exec (.hostRequest arriving) s = .next { withChannel s rest with
          events := s.events.raise { kind := .refused, cause := some reason, address := some (r.wordAddress ++ 0#3)
                                     value := some (BitVec.ofNat 64 r.tag.val) }
          sent := sentHost s { tag := r.tag, status := .refused, data := [] } }) ∧
      (TagFree s r.tag →
        (∃ ix off, decodeRequest s.mode s.regions r = .live ix off false ∨ decodeRequest s.mode s.regions r = .snap ix off false) ∨
          (∃ ix off g n, decodeRequest s.mode s.regions r = .snap ix off true ∧ r.kind = .read n ∧ s.regions[ix].group = some g ∧
            s.groups[g].state ≠ .held) →
        exec (.hostRequest arriving) s =
          .next { withChannel s rest with sent := sentHost s { tag := r.tag, status := .busy, data := [] } })

/-- A PLAIN, ALIAS or served SNAP read is taken: one record, and all its words offered in ascending address order, at its own
addresses or from the held bank's base (R91, R118). While the port is FAILED every word fails on being offered, and the FAULT
response with zero words is sent at once (R122, R137). The request may arrive with the command (log 4). The log of responses is
log 8, the number of words awaited log 9, the place of the offered words log 10. -/
def Obligations.HostReadPassesThrough : Prop :=
  ∀ (s : State) (arriving : Option HostRequest) (r : HostRequest) (rest : List HostRequest) (n : Fin 32) (cls : TxClass)
    (first : Addr), Takes s arriving r rest → TagFree s r.tag → r.kind = .read n →
    (decodeRequest s.mode s.regions r = .plain ∧ cls = .plain ∧ first = r.wordAddress ++ 0#3) ∨
      (∃ ix, decodeRequest s.mode s.regions r = .aliasBank ix ∧ cls = .aliasBank ∧ first = r.wordAddress ++ 0#3) ∨
      (∃ ix off g, decodeRequest s.mode s.regions r = .snap ix off true ∧ s.regions[ix].group = some g ∧
        s.groups[g].state = .held ∧ cls = .snap ∧ first = s.regions[ix].bankBase s.groups[g].active.other + off) →
      (s.port.state ≠ .failed → exec (.hostRequest arriving) s = .next { s with
        host := { s.host with channel := rest, records := s.host.records ++ [openedRecord r.tag .read cls n.val n.val] }
        port := { s.port with offered := s.port.offered ++ (List.range n.val).map (readWord r.tag first) } }) ∧
      (FailedPort s → exec (.hostRequest arriving) s = .next { withChannel s rest with sent := sentHost s (readFailed r.tag n.val) })

/-- A PLAIN write is taken: its first word whose mask is not 00H is offered with the host's mask and data, and the intake is
TAKING; with every mask 00H it is answered OK at once, with no record and no offer (R119). While the port is FAILED every word
fails on being offered, and FAULT is answered at once (R122, R137). The request may arrive with the command (log 4); the number of
words awaited is log 9. The log of responses is log 8, the place of the offered word log 10. -/
def Obligations.HostPlainWriteTaken : Prop :=
  ∀ (s : State) (arriving : Option HostRequest) (r : HostRequest) (rest : List HostRequest) (ws : List WriteWord),
    Takes s arriving r rest → TagFree s r.tag → r.kind = .write ws → decodeRequest s.mode s.regions r = .plain →
    (∀ i word, ws[i]? = some word → word.mask ≠ 0 → (∀ j, j < i → ∀ x ∈ ws[j]?, x.mask = 0) →
      (s.port.state ≠ .failed → exec (.hostRequest arriving) s = .next { s with
        host := {
          channel := rest
          intake := .plainWrite { tag := r.tag, start := r.wordAddress ++ 0#3, words := ws, position := i }
          records := s.host.records ++ [openedRecord r.tag .write .plain ws.length (ws.countP fun x => x.mask ≠ 0)] }
        port := { s.port with offered := s.port.offered ++ [{
          tag := r.tag, index := i, addr := (r.wordAddress ++ 0#3) + BitVec.ofNat 32 (8 * i), write := some word }] } }) ∧
      (FailedPort s → exec (.hostRequest arriving) s =
        .next { withChannel s rest with sent := sentHost s { tag := r.tag, status := .fault, data := [] } })) ∧
    ((∀ x ∈ ws, x.mask = 0) → exec (.hostRequest arriving) s =
      .next { withChannel s rest with sent := sentHost s { tag := r.tag, status := .ok, data := [] } })

/-- An open LIVE write is taken: with every mask 00H it is answered OK at once; else the contribution of its first word whose mask
is not 00H is presented in the same step (R120). It stalls the intake when it needs a position and none is free (R44). Taken with
words left, it leaves the intake TAKING at the next one. With none left the write is posted: OK is sent, no record is left, and a
flip pending in a READY group is taken then (R77). While the port is FAILED the entry is removed at once with MEM_FAULT (R53,
R137). The request may arrive with the command (log 4); stamps are log 7, the log of responses log 8. The number of words awaited
is log 9. -/
def Obligations.HostLiveWriteTaken : Prop :=
  ∀ (s : State) (arriving : Option HostRequest) (r : HostRequest) (rest : List HostRequest) (ws : List WriteWord) (ix : RegionIx)
    (off : Addr) (ok : HostResponse), Takes s arriving r rest → TagFree s r.tag → r.kind = .write ws →
    decodeRequest s.mode s.regions r = .live ix off true → ok = { tag := r.tag, status := .ok, data := [] } →
    ((∀ x ∈ ws, x.mask = 0) → exec (.hostRequest arriving) s = .next { withChannel s rest with sent := sentHost s ok }) ∧
    ∀ i word offset entry opened, ws[i]? = some word → word.mask ≠ 0 → (∀ j, j < i → ∀ x ∈ ws[j]?, x.mask = 0) →
      offset = off + BitVec.ofNat 32 (8 * i) → entry = appendedEntry s ix offset word →
      opened = s.host.records ++ [openedRecord r.tag .write .live ws.length 0] →
      (s.port.state ≠ .failed → s.contribute ix offset word = none → exec (.hostRequest arriving) s = .next { s with
        host := {
          channel := rest
          intake := .liveWrite { tag := r.tag, region := ix, offset := off, words := ws, position := i } true
          records := opened } }) ∧
      (∀ k later intake, i < k → ws[k]? = some later → later.mask ≠ 0 → (∀ j, i < j → j < k → ∀ x ∈ ws[j]?, x.mask = 0) →
        intake = .liveWrite { tag := r.tag, region := ix, offset := off, words := ws, position := k } false →
        (∀ u, s.port.state ≠ .failed → s.contribute ix offset word = some u → exec (.hostRequest arriving) s = .next { s with
          host := { channel := rest, intake := intake, records := opened }, merge := u.merge }) ∧
        (FailedPort s → exec (.hostRequest arriving) s = .next { s with
          host := { channel := rest, intake := intake, records := opened }
          merge := { s.merge with nextStamp := s.merge.nextStamp + 1 }, events := s.events.raise (downReport entry) })) ∧
      ((∀ j, i < j → ∀ x ∈ ws[j]?, x.mask = 0) →
        (∀ u, s.port.state ≠ .failed → s.contribute ix offset word = some u →
          ((∀ g, s.regions[ix].group = some g → s.groups[g].state = .ready → s.groups[g].flipPending = false) →
            exec (.hostRequest arriving) s = .next { withChannel s rest with merge := u.merge, sent := sentHost s ok }) ∧
          (∀ g : GroupIx, s.regions[ix].group = some g → s.groups[g].state = .ready → s.groups[g].flipPending = true →
            exec (.hostRequest arriving) s = .next { withChannel s rest with
              merge := u.merge, sent := sentHost s ok, groups := s.groups.set g (flipped u g)
              events := raised s.events (if drainOnFlip u g = 0 then [doneAtFlip s g] else []) })) ∧
        (FailedPort s →
          ((∀ g, s.regions[ix].group = some g → s.groups[g].state = .ready → s.groups[g].flipPending = false) →
            exec (.hostRequest arriving) s = .next { withChannel s rest with
              merge := { s.merge with nextStamp := s.merge.nextStamp + 1 }, sent := sentHost s ok
              events := s.events.raise (downReport entry) }) ∧
          (∀ g : GroupIx, s.regions[ix].group = some g → s.groups[g].state = .ready → s.groups[g].flipPending = true →
            exec (.hostRequest arriving) s = .next { withChannel s rest with
              merge := { s.merge with nextStamp := s.merge.nextStamp + 1 }, sent := sentHost s ok
              groups := s.groups.set g (heldAfterFlip s g), events := raised s.events [downReport entry, doneAtFlip s g] })))

/-- An open LIVE read is taken in one step: direct with no entry of the queue for its words, held behind those entries, each
pinned, while fewer than 4 reads are held, and else stalling the intake (R57, R121). While the port is FAILED every word fails,
and the FAULT response with zero words is sent at once (R122, R137). The request may arrive with the command (log 4); stamps are
log 7. The log of responses is log 8, the number of words awaited log 9, the place of the offered words log 10. -/
def Obligations.HostLiveReadTaken : Prop :=
  ∀ (s : State) (arriving : Option HostRequest) (r : HostRequest) (rest : List HostRequest) (n : Fin 32) (ix : RegionIx)
    (off first : Addr) (opened : List TxRecord), Takes s arriving r rest → TagFree s r.tag → r.kind = .read n →
    decodeRequest s.mode s.regions r = .live ix off true → first = s.regions[ix].bankBase (bankNow s ix) + off →
    opened = s.host.records ++ [openedRecord r.tag .read .live n.val n.val] →
    (s.port.state ≠ .failed →
      ((∀ e ∈ s.merge.queue, ¬Covers first n.val e.addr) → exec (.hostRequest arriving) s = .next { s with
        host := { s.host with channel := rest, records := opened }
        port := { s.port with offered := s.port.offered ++ (List.range n.val).map (readWord r.tag first) } }) ∧
      ((∃ e ∈ s.merge.queue, Covers first n.val e.addr) → s.merge.hold.length < 4 →
        exec (.hostRequest arriving) s = .next { s with
          host := { s.host with channel := rest, records := opened }
          merge := {
            queue := s.merge.queue.map fun e => if Covers first n.val e.addr then { e with pinned := true } else e
            hold := s.merge.hold ++ [{
              stamp := s.merge.nextStamp, tag := r.tag, first := first, length := n.val
              blockers := (s.merge.queue.filter fun e => Covers first n.val e.addr).map MergeEntry.stamp
              state := .blocked, issued := 0 }]
            nextStamp := s.merge.nextStamp + 1 } }) ∧
      ((∃ e ∈ s.merge.queue, Covers first n.val e.addr) → 4 ≤ s.merge.hold.length →
        exec (.hostRequest arriving) s = .next { s with host := {
          channel := rest
          intake := .liveRead { tag := r.tag, region := ix, offset := off, length := n.val }
          records := opened } })) ∧
    (FailedPort s → exec (.hostRequest arriving) s = .next { withChannel s rest with sent := sentHost s (readFailed r.tag n.val) })

/-! ### The laws that every step keeps -/

/-- Every law of the part holds right after reset. -/
def Obligations.ResetMeetsEveryLaw : Prop :=
  EventLaw State.reset ∧ SerialLaw State.reset ∧ CapacityLaw State.reset ∧ ModeLaw State.reset ∧ RundownLaw State.reset ∧
    DrainLaw State.reset ∧ BankLaw State.reset ∧ QueueLaw State.reset ∧ ShieldLaw State.reset ∧ PortLaw State.reset ∧
    RecordLaw State.reset ∧ JobLaw State.reset ∧ LinkLaw State.reset ∧ ResetLaw State.reset

/-- Every step keeps the law of the event queue and ATTN, and the law of the serials (R143, R146, R153). -/
def Obligations.EventLawsKept : Prop :=
  ∀ s t : State, EventLaw s → SerialLaw s → step s = .next t → EventLaw t ∧ SerialLaw t

/-- Every step keeps the capacities (merge queue 16, hold list 4, outstanding list 8; R39, R59, R128), the law of the port (nothing
outstanding unless UP, nothing offered while FAILED; R133, R137), one record for each outstanding tag (R114), the law of the
management link (empty between transfers, fewer than eight bits of a byte, a response only behind a complete frame; R170, R174,
R175), and the reset values while RESET is asserted (R169, R175). -/
def Obligations.ListLawsKept : Prop :=
  ∀ s t : State, CapacityLaw s → PortLaw s → RecordLaw s → LinkLaw s → ResetLaw s → step s = .next t →
    CapacityLaw t ∧ PortLaw t ∧ RecordLaw t ∧ LinkLaw t ∧ ResetLaw t

/-- Every step keeps the tie between mode and group states (R67), the empty merge path of BYPASS and STARTING (R46), the drain counts
(R79) and the ordering of banks (R81). -/
def Obligations.BankLawsKept : Prop :=
  ∀ s t : State, ModeLaw s → RundownLaw s → DrainLaw s → BankLaw s → step s = .next t →
    ModeLaw t ∧ RundownLaw t ∧ DrainLaw t ∧ BankLaw t

/-- Every step keeps the law of the queue: for each word at most one entry takes contributions (R42), and at most one is READING or
WRITING (R47); each outstanding merge request is that of one such entry (R48, R53). PortLaw is kept by itself (ListLawsKept).
Acceptance order is by the model's stamps (log 7). -/
def Obligations.QueueLawKept : Prop := ∀ s t : State, PortLaw s → QueueLaw s → step s = .next t → QueueLaw t

/-- Every step keeps the law of the job list: no (region, bank) pair twice, empty in BYPASS and STOPPING (R95, R157). -/
def Obligations.JobLawKept : Prop := ∀ s t : State, JobLaw s → step s = .next t → JobLaw t

/-- Every step keeps the law of the pass-through writes (R14, R15, R119). -/
def Obligations.ShieldLawKept : Prop := ∀ s t : State, ShieldLaw s → step s = .next t → ShieldLaw t

/-- The law of the shield (R14): outside BYPASS, a write that a grant sends into a bank of an enabled region is a merge write-back
or a scrub write: the one request that this grant adds to the outstanding list has such an owner, that address, and a full mask. The
log of requests is log 8. -/
def Obligations.ShieldKeepsHostWritesFromBanks : Prop :=
  ∀ (s t : State) (now : Nat) (a : Addr) (mask : Byte) (data : Word64), ShieldLaw s → s.mode ≠ .bypass →
    exec (.grant now) s = .next t → t.sent.memory = s.sent.memory ++ [.write a mask data] → inAnyBank s.regions a = true →
      mask = 0xFF#8 ∧ ∃ o, t.port.outstanding = s.port.outstanding ++ [o] ∧ o.addr = a ∧
        ((∃ stamp, o.owner = .mergeWrite stamp) ∨ ∃ job, o.owner = .scrubWrite job)

/-- A group's epoch changes by flips alone, and each flip taken raises it by one (R76, R84). A command other than RESET either keeps
the epoch: then no flip was taken, so the active bank stays unless the group was OFF, the group is DRAINING only if it was, and HELD
only if it was that or DRAINING. Or it raises the epoch by one: then the mode was RUN or STOPPING, the group was READY or CLEANING,
its bank swaps, no flip is pending, and it is DRAINING, HELD, or OFF with the end of STOPPING. The tie of mode and group states (R67)
is kept by itself (BankLawsKept). -/
def Obligations.EpochChangesByFlipsOnly : Prop :=
  ∀ (c : Instr) (s t : State) (g : GroupIx), ModeLaw s → c ≠ .reset → exec c s = .next t →
    (t.groups[g].epoch = s.groups[g].epoch ∧
      (s.groups[g].state ≠ .off → t.groups[g].active = s.groups[g].active) ∧
      (t.groups[g].state = .draining → s.groups[g].state = .draining) ∧
      (t.groups[g].state = .held → s.groups[g].state = .held ∨ s.groups[g].state = .draining)) ∨
    (t.groups[g].epoch = s.groups[g].epoch + 1 ∧ t.groups[g].active = s.groups[g].active.other ∧
      t.groups[g].flipPending = false ∧ (s.mode = .run ∨ s.mode = .stopping) ∧
      (s.groups[g].state = .ready ∨ s.groups[g].state = .cleaning) ∧
      (t.groups[g].state = .draining ∨ t.groups[g].state = .held ∨
        (t.groups[g].state = .off ∧ t.mode = .bypass ∧ s.mode = .stopping)))
end

