-- ==== Sys2Proof/Laws/Layouts.lean ====
section
/-! SUPPORT. The byte layouts of the management link in the bytes that the statements write out (R179), one lemma per layout. -/

namespace Sys2Proof.Machine

open Sys2Proof.Safety

/-! ### Numbers and presence bits -/

theorem natBytes_1 (v : Nat) : natBytes 1 v = [BitVec.ofNat 8 v] := by simp [natBytes]

theorem natBytes_2 (v : Nat) : natBytes 2 v = bytes2 v := by simp [natBytes, bytes2]

theorem natBytes_4 (v : Nat) : natBytes 4 v = bytes4 v := by simp [natBytes, bytes4]

theorem natBytes_8 (v : Nat) : natBytes 8 v = bytes8 v := by
  simp [natBytes, bytes8, bytes4, Nat.div_div_eq_div_mul]

/-- A sum over the first n + 1 numbers, its first term apart. -/
theorem sum_range_succ_first (f : Nat → Nat) (n : Nat) :
    ((List.range (n+1)).map f).sum = f 0 + ((List.range n).map fun k => f (k+1)).sum := by
  rw [List.range_succ_eq_map]; simp [Function.comp_def]

/-- A common factor goes out of a sum. -/
theorem sum_map_const_mul (f : Nat → Nat) (c : Nat) (l : List Nat) : (l.map fun k => c * f k).sum = c * (l.map f).sum := by
  induction l with
  | nil => simp
  | cons x xs ih => simp [ih, Nat.mul_add]

/-- A byte of presence bits, bit by bit (R179). -/
theorem presence_eq (items : List Bool) : presence items = presenceBits items := by
  unfold presence presenceBits
  congr 1
  induction items with
  | nil => rfl
  | cons x xs ih =>
    rw [List.foldr_cons, ih, List.length_cons, sum_range_succ_first, ← sum_map_const_mul]
    congr 1
    · cases x <;> simp
    · congr 1
      apply List.map_congr_left
      intro k _
      simp only [List.getElem?_cons_succ]
      split <;> simp_all [Nat.pow_succ, Nat.mul_comm]

/-- The operands of an entry in their lanes' bytes, as a sum (R21, R181). -/
theorem packLanes_eq (w : LaneWidth) (l : List (Option LaneOperand)) :
    packLanes w (l.map fun x => (x.map LaneOperand.value).getD 0) = ((List.range l.length).map fun k =>
    match l[k]? with
    | some (some a) => a.value * 2 ^ (w.bits * k)
    | _ => 0).sum := by
  induction l with
  | nil => rfl
  | cons x xs ih =>
    rw [List.map_cons, packLanes, ih, List.length_cons, sum_range_succ_first, ← sum_map_const_mul]
    congr 1
    · cases x <;> simp
    · congr 1
      apply List.map_congr_left
      intro k _
      simp only [List.getElem?_cons_succ]
      split <;> simp_all [Nat.mul_add, Nat.pow_add]
      ring

/-! ### Layouts -/

/-- The region record layout (R179). -/
theorem Region.layout_eq (r : Region) : r.layout = regionBytes r := by
  simp only [Region.layout, regionBytes, natBytes_2, natBytes_4, natBytes_8, optBytes, presence_eq, flagByte, regionGroupCode]
  cases r.group <;> cases r.snapBase <;> cases r.bankBBase <;> cases r.preset <;> cases r.threshold <;> cases r.lastClamp <;> rfl

/-- The event record layout (R179). -/
theorem EventRecord.layout_eq (e : EventRecord) : e.layout = eventBytes e := by
  simp only [EventRecord.layout, eventBytes, natBytes_2, natBytes_4, natBytes_8, natBytes_1, optBytes, presence_eq]
  rcases e with ⟨s, l, ⟨_, g, ep, re, a, la, v, c, ca, st, b⟩⟩
  cases g <;> cases ep <;> cases re <;> cases a <;> cases v <;> rfl

/-- The merge entry layout (R179). -/
theorem MergeEntry.layout_eq (e : MergeEntry) : e.layout = entryBytes e := by
  have h1 : e.state.readData = wordRead e := by unfold wordRead EntryState.readData; cases e.state <;> rfl
  have h2 : e.operandWord = operandNumber e := packLanes_eq _ _
  have h3 : (e.lanes.map fun x => x.any LaneOperand.saturated) = e.lanes.map fun a => match a with | some x => x.saturated | none => false := by
    apply List.map_congr_left; intro a _; cases a <;> rfl
  simp only [MergeEntry.layout, entryBytes, natBytes_2, natBytes_4, natBytes_8, optBytes, presence_eq, flagByte, h1, h2, h3]
  cases e.group <;> cases e.epoch <;> cases wordRead e <;> rfl

/-- SCRUB_STATUS with an empty list (R110, R179). -/
theorem ScrubEngine.layout_idle {e : ScrubEngine} (h : e.jobs = []) : e.layout = e.engine.code :: List.replicate 21 0 := by
  simp only [ScrubEngine.layout, h]; rfl

/-- SCRUB_STATUS with an active job (R110, R179). -/
theorem ScrubEngine.layout_active {e : ScrubEngine} {j : ScrubJob} {jobs : List ScrubJob} (h : e.jobs = j :: jobs) :
    e.layout = scrubBytes e.engine j jobs := by
  simp only [ScrubEngine.layout, h, scrubBytes, optBytes, natBytes_4, presence_eq]
  cases hf : j.firstFailed <;> simp [hf]

/-! ### REGION_WRITE -/

/-- A byte put behind a bit vector (R179). -/
theorem toNat_append_byte {n : Nat} (x : BitVec n) (b : Byte) : (x ++ b).toNat = x.toNat * 256 + b.toNat := by
  rw [BitVec.toNat_append, ← Nat.shiftLeft_add_eq_or_of_lt b.isLt, Nat.shiftLeft_eq]

/-- Four bytes as a number, most significant byte first (R179). -/
theorem ofNat_bytesNat_4 (a b c d : Byte) : BitVec.ofNat 32 (bytesNat [a, b, c, d]) = a ++ b ++ c ++ d := by
  apply BitVec.eq_of_toNat_eq
  rw [BitVec.toNat_ofNat, toNat_append_byte, toNat_append_byte, toNat_append_byte]
  simp only [bytesNat, List.foldl_cons, List.foldl_nil]
  omega

/-- Eight bytes as a number, most significant byte first (R179). -/
theorem ofNat_bytesNat_8 (a b c d e f g h : Byte) :
    BitVec.ofNat 64 (bytesNat [a, b, c, d, e, f, g, h]) = a ++ b ++ c ++ d ++ e ++ f ++ g ++ h := by
  apply BitVec.eq_of_toNat_eq
  rw [BitVec.toNat_ofNat]
  iterate 7 rw [toNat_append_byte]
  simp only [bytesNat, List.foldl_cons, List.foldl_nil]
  omega

/-- The fields of a layout, byte by byte. -/
theorem fieldAt_toList (b : Vector Byte 42) (start n : Nat) (h : start + n ≤ 42) :
    fieldAt b.toList start n = bytesNat ((List.range n).map fun i => b.toList.getD (start + i) 0) := by
  unfold fieldAt
  congr 1
  apply List.ext_getElem?
  intro i
  simp only [List.getElem?_take, List.getElem?_drop, List.getElem?_map]
  split
  · rename_i hi
    rw [List.getElem?_range hi, Option.map_some, List.getD_eq_getElem?_getD, List.getElem?_eq_getElem (by simp; omega)]
    rfl
  · rename_i hi
    rw [List.getElem?_eq_none (by simp; omega)]
    rfl

theorem getD_toList (b : Vector Byte 42) (i : Nat) (h : i < 42) : b.toList.getD i 0 = b[i] := by
  rw [List.getD_eq_getElem?_getD, List.getElem?_eq_getElem (by simpa using h)]
  simp

/-- Two bytes of a layout (R179). -/
theorem fieldAt_2 (b : Vector Byte 42) (k : Nat) (h : k + 2 ≤ 42) : fieldAt b.toList k 2 = b[k].toNat * 256 + b[k + 1].toNat := by
  rw [fieldAt_toList b k 2 h]
  simp only [List.range_succ, List.range_zero, List.nil_append, List.cons_append, List.map_cons, List.map_nil, Nat.add_zero,
    getD_toList b k (by omega), getD_toList b (k + 1) (by omega), bytesNat, List.foldl_cons, List.foldl_nil, Nat.zero_mul, Nat.zero_add]

/-- Four bytes of a layout (R179). -/
theorem fieldAt_4 (b : Vector Byte 42) (k : Nat) (h : k + 4 ≤ 42) :
    BitVec.ofNat 32 (fieldAt b.toList k 4) = b[k] ++ b[k + 1] ++ b[k + 2] ++ b[k + 3] := by
  rw [fieldAt_toList b k 4 h]
  simp only [List.range_succ, List.range_zero, List.nil_append, List.cons_append, List.map_cons, List.map_nil, Nat.add_zero,
    getD_toList b k (by omega), getD_toList b (k + 1) (by omega), getD_toList b (k + 2) (by omega), getD_toList b (k + 3) (by omega),
    ofNat_bytesNat_4]

/-- Eight bytes of a layout (R179). -/
theorem fieldAt_8 (b : Vector Byte 42) (k : Nat) (h : k + 8 ≤ 42) :
    BitVec.ofNat 64 (fieldAt b.toList k 8) =
      b[k] ++ b[k + 1] ++ b[k + 2] ++ b[k + 3] ++ b[k + 4] ++ b[k + 5] ++ b[k + 6] ++ b[k + 7] := by
  rw [fieldAt_toList b k 8 h]
  simp only [List.range_succ, List.range_zero, List.nil_append, List.cons_append, List.map_cons, List.map_nil, Nat.add_zero,
    getD_toList b k (by omega), getD_toList b (k + 1) (by omega), getD_toList b (k + 2) (by omega), getD_toList b (k + 3) (by omega),
    getD_toList b (k + 4) (by omega), getD_toList b (k + 5) (by omega), getD_toList b (k + 6) (by omega), getD_toList b (k + 7) (by omega),
    ofNat_bytesNat_8]

/-- The record that a layout with no failing field gives (R4, R179, R180). -/
theorem regionOfLayout_gives {b : Vector Byte 42} (h : ∀ k, ¬fieldFails b k) : LayoutGives b (regionOfLayout b.toList) := by
  have codes (n : Nat) (x : Byte) (hx : x.toNat ≤ n) : x ∈ (List.range (n + 1)).map (BitVec.ofNat 8) :=
    List.mem_map.2 ⟨x.toNat, List.mem_range.2 (Nat.lt_succ_of_le hx), by simp⟩
  have g (i : Nat) (hi : i < 42) := getD_toList b i hi
  unfold LayoutGives regionOfLayout optField presentBit
  simp only [g 0 (by decide), g 1 (by decide), g 2 (by decide), g 3 (by decide), g 4 (by decide), g 5 (by decide), g 6 (by decide),
    fieldAt_2 b 8 (by decide), fieldAt_4 b 10 (by decide), fieldAt_4 b 14 (by decide), fieldAt_4 b 18 (by decide),
    fieldAt_4 b 22 (by decide), fieldAt_8 b 26 (by decide), fieldAt_8 b 34 (by decide), Nat.reduceAdd, and_true]
  have h1 := codes 1 b[0] (Nat.not_lt.1 (h 1))
  have h4 := codes 4 b[1] (Nat.not_lt.1 (h 4))
  have h8 := codes 7 b[2] (Nat.not_lt.1 (h 8))
  have h9 := codes 3 b[3] (Nat.not_lt.1 (h 9))
  have h10 := codes 1 b[4] (Nat.not_lt.1 (h 10))
  have h12 := codes 2 b[5] (Nat.not_lt.1 (h 12))
  refine ⟨?_, ?_, ?_, ?_, ?_, ?_⟩
  · revert h1; generalize b[0] = x; revert x; decide
  · revert h4; generalize b[1] = x; revert x; decide
  · revert h8; generalize b[2] = x; revert x; decide
  · revert h9; generalize b[3] = x; revert x; decide
  · revert h10; generalize b[4] = x; revert x; decide
  · revert h12; generalize b[5] = x; revert x; decide

theorem aligned_iff (n : Nat) : aligned n = true ↔ n % 4096 = 0 := by simp [aligned]

/-- Each check of REGION_WRITE is that of the statements (R5, R180). -/
theorem fieldChecks_iff (b : Vector Byte 42) : ∀ c ∈ fieldChecks b.toList, c.2 = true ↔ ¬fieldFails b c.1 := by
  have g (i : Nat) (hi : i < 42) := getD_toList b i hi
  have four (k : Nat) (h : k + 4 ≤ 42) : aligned (fieldAt b.toList k 4) = true ↔ ¬(b[k + 2].toNat % 16 ≠ 0 ∨ b[k + 3] ≠ 0) := by
    have h0 := b[k].isLt; have h1 := b[k + 1].isLt; have h2 := b[k + 2].isLt; have h3 := b[k + 3].isLt
    have e : b[k + 3] = 0 ↔ b[k + 3].toNat = 0 := by rw [← BitVec.toNat_inj]; rfl
    have hb := congrArg BitVec.toNat (fieldAt_4 b k h)
    rw [toNat_append_byte, toNat_append_byte, toNat_append_byte, BitVec.toNat_ofNat] at hb
    simp only [aligned_iff, ne_eq, not_or, not_not, e]
    omega
  have codes (x : Byte) : ((yesNoOf x).isSome = true ↔ ¬1 < x.toNat) ∧ ((regionGroupOf x).isSome = true ↔ ¬4 < x.toNat) ∧
      ((operationOf x).isSome = true ↔ ¬7 < x.toNat) ∧ ((widthOf x).isSome = true ↔ ¬3 < x.toNat) ∧
      ((patternOf x).isSome = true ↔ ¬1 < x.toNat) ∧ ((clampReportOf x).isSome = true ↔ ¬2 < x.toNat) ∧
      (patternOf x = some .preset ↔ x = 1) := by
    revert x; decide +kernel
  intro c hc
  simp only [fieldChecks, g 0 (by decide), g 1 (by decide), g 2 (by decide), g 3 (by decide), g 4 (by decide), g 5 (by decide),
    presentBit, g 6 (by decide), List.mem_cons, List.not_mem_nil, or_false] at hc
  rcases hc with rfl | rfl | rfl | rfl | rfl | rfl | rfl | rfl | rfl | rfl | rfl | rfl | rfl
  · exact (codes _).1
  · exact four 10 (by decide)
  · rw [Bool.and_eq_true, decide_eq_true_iff, decide_eq_true_iff, fieldAt_2 b 8 (by decide)]
    show _ ↔ ¬(b[8].toNat * 256 + b[9].toNat = 0 ∨ 4096 < b[8].toNat * 256 + b[9].toNat)
    simp only [Nat.reduceAdd]
    omega
  · exact (codes _).2.1
  · rw [Bool.or_eq_true, Bool.not_eq_true', four 14 (by decide)]
    show _ ↔ ¬(_ ∧ _)
    rw [not_and, ← Bool.not_eq_true]
    exact imp_iff_not_or.symm
  · exact four 18 (by decide)
  · rw [Bool.or_eq_true, Bool.not_eq_true', four 22 (by decide)]
    show _ ↔ ¬(_ ∧ _)
    rw [not_and, ← Bool.not_eq_true]
    exact imp_iff_not_or.symm
  · exact (codes _).2.2.1
  · exact (codes _).2.2.2.1
  · exact (codes _).2.2.2.2.1
  · show _ ↔ ¬¬_
    rw [not_not, beq_iff_eq, Bool.eq_iff_iff, beq_iff_eq, (codes _).2.2.2.2.2.2]
  · exact (codes _).2.2.2.2.2.1
  · exact ⟨fun _ h => h, fun _ => rfl⟩

/-- REGION_WRITE accepts a layout with no failing field (R5). -/
theorem firstFailingField_none {b : Vector Byte 42} (h : ∀ k, ¬fieldFails b k) : firstFailingField b.toList = none := by
  unfold firstFailingField
  rw [Option.map_eq_none_iff, List.find?_eq_none]
  intro c hc
  simp [(fieldChecks_iff b c hc).2 (h c.1)]

/-- The fields that can fail are numbered from 1, and field 13 takes every value (R5). -/
theorem fieldFails_numbered {b : Vector Byte 42} {k : Nat} (h : fieldFails b k) : 1 ≤ k ∧ k ≤ 12 := by
  by_contra outside
  obtain rfl | beyond : k = 0 ∨ 13 ≤ k := by omega
  · exact h
  · obtain ⟨n, rfl⟩ := Nat.exists_eq_add_of_le' beyond
    exact h

/-- REGION_WRITE reports the first field that fails (R5). -/
theorem firstFailingField_some {b : Vector Byte 42} {k : Nat} (h : fieldFails b k) (first : ∀ j, 1 ≤ j → j < k → ¬fieldFails b j) :
    firstFailingField b.toList = some k := by
  have hnum : (fieldChecks b.toList).map Prod.fst = [1, 2, 3, 4, 5, 6, 7, 8, 9, 10, 11, 12, 13] := rfl
  have hk := fieldFails_numbered h
  have hm : k ∈ (fieldChecks b.toList).map Prod.fst := by
    rw [hnum]; simp only [List.mem_cons, List.not_mem_nil, or_false]; omega
  obtain ⟨c, hc, rfl⟩ := List.mem_map.1 hm
  have hs : (fieldChecks b.toList).Pairwise fun x y => x.1 < y.1 := by
    rw [← List.pairwise_map (R := fun x y : Nat => x < y), hnum]; decide
  unfold firstFailingField
  obtain ⟨as, bs, hq⟩ := List.append_of_mem hc
  have hf : c.2 = false := by
    by_contra hne
    exact (fieldChecks_iff b c hc).1 (by simpa using hne) h
  rw [List.find?_eq_some_iff_append.2 ⟨by simp [hf], as, bs, hq, ?_⟩]
  · rfl
  · intro a ha
    have ham : a ∈ fieldChecks b.toList := by rw [hq]; exact List.mem_append_left _ ha
    have hlt : a.1 < c.1 := by
      rw [hq, List.pairwise_append] at hs
      exact hs.2.2 a ha c List.mem_cons_self
    have h1 : 1 ≤ a.1 := by
      have : a.1 ∈ (fieldChecks b.toList).map Prod.fst := List.mem_map_of_mem ham
      rw [hnum] at this; simp only [List.mem_cons, List.not_mem_nil, or_false] at this; omega
    simp [(fieldChecks_iff b a ham).2 (first a.1 h1 hlt)]

end Sys2Proof.Machine
end

