-- ==== Sys2Proof/Laws/State.lean ====
section
/-! SUPPORT. One lemma per field per update of the state, each true by rfl, so that no proof unfolds a record update. -/

namespace Sys2Proof.Machine

/-! ### What the updates leave -/

@[simp] theorem State.raise_resetAsserted (s : State) (r : Report) : (s.raise r).resetAsserted = s.resetAsserted := rfl
@[simp] theorem State.raise_mode (s : State) (r : Report) : (s.raise r).mode = s.mode := rfl
@[simp] theorem State.raise_armOption (s : State) (r : Report) : (s.raise r).armOption = s.armOption := rfl
@[simp] theorem State.raise_remembered (s : State) (r : Report) : (s.raise r).remembered = s.remembered := rfl
@[simp] theorem State.raise_regions (s : State) (r : Report) : (s.raise r).regions = s.regions := rfl
@[simp] theorem State.raise_host (s : State) (r : Report) : (s.raise r).host = s.host := rfl
@[simp] theorem State.raise_merge (s : State) (r : Report) : (s.raise r).merge = s.merge := rfl
@[simp] theorem State.raise_groups (s : State) (r : Report) : (s.raise r).groups = s.groups := rfl
@[simp] theorem State.raise_scrub (s : State) (r : Report) : (s.raise r).scrub = s.scrub := rfl
@[simp] theorem State.raise_port (s : State) (r : Report) : (s.raise r).port = s.port := rfl
@[simp] theorem State.raise_link (s : State) (r : Report) : (s.raise r).link = s.link := rfl
@[simp] theorem State.raise_sent (s : State) (r : Report) : (s.raise r).sent = s.sent := rfl
@[simp] theorem State.raise_pins (s : State) (r : Report) : (s.raise r).pins = s.pins := rfl
@[simp] theorem State.raise_pending (s : State) (r : Report) : (s.raise r).pending = s.pending := rfl

@[simp] theorem State.raiseAll_resetAsserted (s : State) (rs : List Report) : (s.raiseAll rs).resetAsserted = s.resetAsserted := rfl
@[simp] theorem State.raiseAll_mode (s : State) (rs : List Report) : (s.raiseAll rs).mode = s.mode := rfl
@[simp] theorem State.raiseAll_armOption (s : State) (rs : List Report) : (s.raiseAll rs).armOption = s.armOption := rfl
@[simp] theorem State.raiseAll_remembered (s : State) (rs : List Report) : (s.raiseAll rs).remembered = s.remembered := rfl
@[simp] theorem State.raiseAll_regions (s : State) (rs : List Report) : (s.raiseAll rs).regions = s.regions := rfl
@[simp] theorem State.raiseAll_host (s : State) (rs : List Report) : (s.raiseAll rs).host = s.host := rfl
@[simp] theorem State.raiseAll_merge (s : State) (rs : List Report) : (s.raiseAll rs).merge = s.merge := rfl
@[simp] theorem State.raiseAll_groups (s : State) (rs : List Report) : (s.raiseAll rs).groups = s.groups := rfl
@[simp] theorem State.raiseAll_scrub (s : State) (rs : List Report) : (s.raiseAll rs).scrub = s.scrub := rfl
@[simp] theorem State.raiseAll_port (s : State) (rs : List Report) : (s.raiseAll rs).port = s.port := rfl
@[simp] theorem State.raiseAll_link (s : State) (rs : List Report) : (s.raiseAll rs).link = s.link := rfl
@[simp] theorem State.raiseAll_sent (s : State) (rs : List Report) : (s.raiseAll rs).sent = s.sent := rfl
@[simp] theorem State.raiseAll_pins (s : State) (rs : List Report) : (s.raiseAll rs).pins = s.pins := rfl
@[simp] theorem State.raiseAll_pending (s : State) (rs : List Report) : (s.raiseAll rs).pending = s.pending := rfl

@[simp] theorem State.answer_resetAsserted (s : State) (r : HostResponse) : (s.answer r).resetAsserted = s.resetAsserted := rfl
@[simp] theorem State.answer_mode (s : State) (r : HostResponse) : (s.answer r).mode = s.mode := rfl
@[simp] theorem State.answer_armOption (s : State) (r : HostResponse) : (s.answer r).armOption = s.armOption := rfl
@[simp] theorem State.answer_remembered (s : State) (r : HostResponse) : (s.answer r).remembered = s.remembered := rfl
@[simp] theorem State.answer_regions (s : State) (r : HostResponse) : (s.answer r).regions = s.regions := rfl
@[simp] theorem State.answer_host (s : State) (r : HostResponse) : (s.answer r).host = s.host := rfl
@[simp] theorem State.answer_merge (s : State) (r : HostResponse) : (s.answer r).merge = s.merge := rfl
@[simp] theorem State.answer_groups (s : State) (r : HostResponse) : (s.answer r).groups = s.groups := rfl
@[simp] theorem State.answer_scrub (s : State) (r : HostResponse) : (s.answer r).scrub = s.scrub := rfl
@[simp] theorem State.answer_port (s : State) (r : HostResponse) : (s.answer r).port = s.port := rfl
@[simp] theorem State.answer_events (s : State) (r : HostResponse) : (s.answer r).events = s.events := rfl
@[simp] theorem State.answer_link (s : State) (r : HostResponse) : (s.answer r).link = s.link := rfl
@[simp] theorem State.answer_pins (s : State) (r : HostResponse) : (s.answer r).pins = s.pins := rfl
@[simp] theorem State.answer_pending (s : State) (r : HostResponse) : (s.answer r).pending = s.pending := rfl

@[simp] theorem State.sendDown_resetAsserted (s : State) (m : MemRequest) : (s.sendDown m).resetAsserted = s.resetAsserted := rfl
@[simp] theorem State.sendDown_mode (s : State) (m : MemRequest) : (s.sendDown m).mode = s.mode := rfl
@[simp] theorem State.sendDown_armOption (s : State) (m : MemRequest) : (s.sendDown m).armOption = s.armOption := rfl
@[simp] theorem State.sendDown_remembered (s : State) (m : MemRequest) : (s.sendDown m).remembered = s.remembered := rfl
@[simp] theorem State.sendDown_regions (s : State) (m : MemRequest) : (s.sendDown m).regions = s.regions := rfl
@[simp] theorem State.sendDown_host (s : State) (m : MemRequest) : (s.sendDown m).host = s.host := rfl
@[simp] theorem State.sendDown_merge (s : State) (m : MemRequest) : (s.sendDown m).merge = s.merge := rfl
@[simp] theorem State.sendDown_groups (s : State) (m : MemRequest) : (s.sendDown m).groups = s.groups := rfl
@[simp] theorem State.sendDown_scrub (s : State) (m : MemRequest) : (s.sendDown m).scrub = s.scrub := rfl
@[simp] theorem State.sendDown_port (s : State) (m : MemRequest) : (s.sendDown m).port = s.port := rfl
@[simp] theorem State.sendDown_events (s : State) (m : MemRequest) : (s.sendDown m).events = s.events := rfl
@[simp] theorem State.sendDown_link (s : State) (m : MemRequest) : (s.sendDown m).link = s.link := rfl
@[simp] theorem State.sendDown_pins (s : State) (m : MemRequest) : (s.sendDown m).pins = s.pins := rfl
@[simp] theorem State.sendDown_pending (s : State) (m : MemRequest) : (s.sendDown m).pending = s.pending := rfl

@[simp] theorem State.setGroup_resetAsserted (s : State) (g : GroupIx) (r : Group) : (s.setGroup g r).resetAsserted = s.resetAsserted := rfl
@[simp] theorem State.setGroup_mode (s : State) (g : GroupIx) (r : Group) : (s.setGroup g r).mode = s.mode := rfl
@[simp] theorem State.setGroup_armOption (s : State) (g : GroupIx) (r : Group) : (s.setGroup g r).armOption = s.armOption := rfl
@[simp] theorem State.setGroup_remembered (s : State) (g : GroupIx) (r : Group) : (s.setGroup g r).remembered = s.remembered := rfl
@[simp] theorem State.setGroup_regions (s : State) (g : GroupIx) (r : Group) : (s.setGroup g r).regions = s.regions := rfl
@[simp] theorem State.setGroup_host (s : State) (g : GroupIx) (r : Group) : (s.setGroup g r).host = s.host := rfl
@[simp] theorem State.setGroup_merge (s : State) (g : GroupIx) (r : Group) : (s.setGroup g r).merge = s.merge := rfl
@[simp] theorem State.setGroup_scrub (s : State) (g : GroupIx) (r : Group) : (s.setGroup g r).scrub = s.scrub := rfl
@[simp] theorem State.setGroup_port (s : State) (g : GroupIx) (r : Group) : (s.setGroup g r).port = s.port := rfl
@[simp] theorem State.setGroup_events (s : State) (g : GroupIx) (r : Group) : (s.setGroup g r).events = s.events := rfl
@[simp] theorem State.setGroup_link (s : State) (g : GroupIx) (r : Group) : (s.setGroup g r).link = s.link := rfl
@[simp] theorem State.setGroup_sent (s : State) (g : GroupIx) (r : Group) : (s.setGroup g r).sent = s.sent := rfl
@[simp] theorem State.setGroup_pins (s : State) (g : GroupIx) (r : Group) : (s.setGroup g r).pins = s.pins := rfl
@[simp] theorem State.setGroup_pending (s : State) (g : GroupIx) (r : Group) : (s.setGroup g r).pending = s.pending := rfl

@[simp] theorem State.setQueue_resetAsserted (s : State) (q : List MergeEntry) : (s.setQueue q).resetAsserted = s.resetAsserted := rfl
@[simp] theorem State.setQueue_mode (s : State) (q : List MergeEntry) : (s.setQueue q).mode = s.mode := rfl
@[simp] theorem State.setQueue_armOption (s : State) (q : List MergeEntry) : (s.setQueue q).armOption = s.armOption := rfl
@[simp] theorem State.setQueue_remembered (s : State) (q : List MergeEntry) : (s.setQueue q).remembered = s.remembered := rfl
@[simp] theorem State.setQueue_regions (s : State) (q : List MergeEntry) : (s.setQueue q).regions = s.regions := rfl
@[simp] theorem State.setQueue_host (s : State) (q : List MergeEntry) : (s.setQueue q).host = s.host := rfl
@[simp] theorem State.setQueue_groups (s : State) (q : List MergeEntry) : (s.setQueue q).groups = s.groups := rfl
@[simp] theorem State.setQueue_scrub (s : State) (q : List MergeEntry) : (s.setQueue q).scrub = s.scrub := rfl
@[simp] theorem State.setQueue_port (s : State) (q : List MergeEntry) : (s.setQueue q).port = s.port := rfl
@[simp] theorem State.setQueue_events (s : State) (q : List MergeEntry) : (s.setQueue q).events = s.events := rfl
@[simp] theorem State.setQueue_link (s : State) (q : List MergeEntry) : (s.setQueue q).link = s.link := rfl
@[simp] theorem State.setQueue_sent (s : State) (q : List MergeEntry) : (s.setQueue q).sent = s.sent := rfl
@[simp] theorem State.setQueue_pins (s : State) (q : List MergeEntry) : (s.setQueue q).pins = s.pins := rfl
@[simp] theorem State.setQueue_pending (s : State) (q : List MergeEntry) : (s.setQueue q).pending = s.pending := rfl

@[simp] theorem State.setIntake_resetAsserted (s : State) (i : Intake) : (s.setIntake i).resetAsserted = s.resetAsserted := rfl
@[simp] theorem State.setIntake_mode (s : State) (i : Intake) : (s.setIntake i).mode = s.mode := rfl
@[simp] theorem State.setIntake_armOption (s : State) (i : Intake) : (s.setIntake i).armOption = s.armOption := rfl
@[simp] theorem State.setIntake_remembered (s : State) (i : Intake) : (s.setIntake i).remembered = s.remembered := rfl
@[simp] theorem State.setIntake_regions (s : State) (i : Intake) : (s.setIntake i).regions = s.regions := rfl
@[simp] theorem State.setIntake_merge (s : State) (i : Intake) : (s.setIntake i).merge = s.merge := rfl
@[simp] theorem State.setIntake_groups (s : State) (i : Intake) : (s.setIntake i).groups = s.groups := rfl
@[simp] theorem State.setIntake_scrub (s : State) (i : Intake) : (s.setIntake i).scrub = s.scrub := rfl
@[simp] theorem State.setIntake_port (s : State) (i : Intake) : (s.setIntake i).port = s.port := rfl
@[simp] theorem State.setIntake_events (s : State) (i : Intake) : (s.setIntake i).events = s.events := rfl
@[simp] theorem State.setIntake_link (s : State) (i : Intake) : (s.setIntake i).link = s.link := rfl
@[simp] theorem State.setIntake_sent (s : State) (i : Intake) : (s.setIntake i).sent = s.sent := rfl
@[simp] theorem State.setIntake_pins (s : State) (i : Intake) : (s.setIntake i).pins = s.pins := rfl
@[simp] theorem State.setIntake_pending (s : State) (i : Intake) : (s.setIntake i).pending = s.pending := rfl

@[simp] theorem State.openRecord_resetAsserted (s : State) (r : TxRecord) : (s.openRecord r).resetAsserted = s.resetAsserted := rfl
@[simp] theorem State.openRecord_mode (s : State) (r : TxRecord) : (s.openRecord r).mode = s.mode := rfl
@[simp] theorem State.openRecord_armOption (s : State) (r : TxRecord) : (s.openRecord r).armOption = s.armOption := rfl
@[simp] theorem State.openRecord_remembered (s : State) (r : TxRecord) : (s.openRecord r).remembered = s.remembered := rfl
@[simp] theorem State.openRecord_regions (s : State) (r : TxRecord) : (s.openRecord r).regions = s.regions := rfl
@[simp] theorem State.openRecord_merge (s : State) (r : TxRecord) : (s.openRecord r).merge = s.merge := rfl
@[simp] theorem State.openRecord_groups (s : State) (r : TxRecord) : (s.openRecord r).groups = s.groups := rfl
@[simp] theorem State.openRecord_scrub (s : State) (r : TxRecord) : (s.openRecord r).scrub = s.scrub := rfl
@[simp] theorem State.openRecord_port (s : State) (r : TxRecord) : (s.openRecord r).port = s.port := rfl
@[simp] theorem State.openRecord_events (s : State) (r : TxRecord) : (s.openRecord r).events = s.events := rfl
@[simp] theorem State.openRecord_link (s : State) (r : TxRecord) : (s.openRecord r).link = s.link := rfl
@[simp] theorem State.openRecord_sent (s : State) (r : TxRecord) : (s.openRecord r).sent = s.sent := rfl
@[simp] theorem State.openRecord_pins (s : State) (r : TxRecord) : (s.openRecord r).pins = s.pins := rfl
@[simp] theorem State.openRecord_pending (s : State) (r : TxRecord) : (s.openRecord r).pending = s.pending := rfl

@[simp] theorem State.closeRecord_resetAsserted (s : State) (tag : Tag) : (s.closeRecord tag).resetAsserted = s.resetAsserted := rfl
@[simp] theorem State.closeRecord_mode (s : State) (tag : Tag) : (s.closeRecord tag).mode = s.mode := rfl
@[simp] theorem State.closeRecord_armOption (s : State) (tag : Tag) : (s.closeRecord tag).armOption = s.armOption := rfl
@[simp] theorem State.closeRecord_remembered (s : State) (tag : Tag) : (s.closeRecord tag).remembered = s.remembered := rfl
@[simp] theorem State.closeRecord_regions (s : State) (tag : Tag) : (s.closeRecord tag).regions = s.regions := rfl
@[simp] theorem State.closeRecord_merge (s : State) (tag : Tag) : (s.closeRecord tag).merge = s.merge := rfl
@[simp] theorem State.closeRecord_groups (s : State) (tag : Tag) : (s.closeRecord tag).groups = s.groups := rfl
@[simp] theorem State.closeRecord_scrub (s : State) (tag : Tag) : (s.closeRecord tag).scrub = s.scrub := rfl
@[simp] theorem State.closeRecord_port (s : State) (tag : Tag) : (s.closeRecord tag).port = s.port := rfl
@[simp] theorem State.closeRecord_events (s : State) (tag : Tag) : (s.closeRecord tag).events = s.events := rfl
@[simp] theorem State.closeRecord_link (s : State) (tag : Tag) : (s.closeRecord tag).link = s.link := rfl
@[simp] theorem State.closeRecord_sent (s : State) (tag : Tag) : (s.closeRecord tag).sent = s.sent := rfl
@[simp] theorem State.closeRecord_pins (s : State) (tag : Tag) : (s.closeRecord tag).pins = s.pins := rfl
@[simp] theorem State.closeRecord_pending (s : State) (tag : Tag) : (s.closeRecord tag).pending = s.pending := rfl

@[simp] theorem State.produce_resetAsserted (s : State) (ws : List PassWord) : (s.produce ws).resetAsserted = s.resetAsserted := rfl
@[simp] theorem State.produce_mode (s : State) (ws : List PassWord) : (s.produce ws).mode = s.mode := rfl
@[simp] theorem State.produce_armOption (s : State) (ws : List PassWord) : (s.produce ws).armOption = s.armOption := rfl
@[simp] theorem State.produce_remembered (s : State) (ws : List PassWord) : (s.produce ws).remembered = s.remembered := rfl
@[simp] theorem State.produce_regions (s : State) (ws : List PassWord) : (s.produce ws).regions = s.regions := rfl
@[simp] theorem State.produce_host (s : State) (ws : List PassWord) : (s.produce ws).host = s.host := rfl
@[simp] theorem State.produce_merge (s : State) (ws : List PassWord) : (s.produce ws).merge = s.merge := rfl
@[simp] theorem State.produce_groups (s : State) (ws : List PassWord) : (s.produce ws).groups = s.groups := rfl
@[simp] theorem State.produce_scrub (s : State) (ws : List PassWord) : (s.produce ws).scrub = s.scrub := rfl
@[simp] theorem State.produce_events (s : State) (ws : List PassWord) : (s.produce ws).events = s.events := rfl
@[simp] theorem State.produce_link (s : State) (ws : List PassWord) : (s.produce ws).link = s.link := rfl
@[simp] theorem State.produce_sent (s : State) (ws : List PassWord) : (s.produce ws).sent = s.sent := rfl
@[simp] theorem State.produce_pins (s : State) (ws : List PassWord) : (s.produce ws).pins = s.pins := rfl
@[simp] theorem State.produce_pending (s : State) (ws : List PassWord) : (s.produce ws).pending = s.pending := rfl

@[simp] theorem State.respond_resetAsserted (s : State) (request : List Byte) (r : Reply) : (s.respond request r).resetAsserted = s.resetAsserted := rfl
@[simp] theorem State.respond_mode (s : State) (request : List Byte) (r : Reply) : (s.respond request r).mode = s.mode := rfl
@[simp] theorem State.respond_armOption (s : State) (request : List Byte) (r : Reply) : (s.respond request r).armOption = s.armOption := rfl
@[simp] theorem State.respond_remembered (s : State) (request : List Byte) (r : Reply) : (s.respond request r).remembered = s.remembered := rfl
@[simp] theorem State.respond_regions (s : State) (request : List Byte) (r : Reply) : (s.respond request r).regions = s.regions := rfl
@[simp] theorem State.respond_host (s : State) (request : List Byte) (r : Reply) : (s.respond request r).host = s.host := rfl
@[simp] theorem State.respond_merge (s : State) (request : List Byte) (r : Reply) : (s.respond request r).merge = s.merge := rfl
@[simp] theorem State.respond_groups (s : State) (request : List Byte) (r : Reply) : (s.respond request r).groups = s.groups := rfl
@[simp] theorem State.respond_scrub (s : State) (request : List Byte) (r : Reply) : (s.respond request r).scrub = s.scrub := rfl
@[simp] theorem State.respond_port (s : State) (request : List Byte) (r : Reply) : (s.respond request r).port = s.port := rfl
@[simp] theorem State.respond_events (s : State) (request : List Byte) (r : Reply) : (s.respond request r).events = s.events := rfl
@[simp] theorem State.respond_sent (s : State) (request : List Byte) (r : Reply) : (s.respond request r).sent = s.sent := rfl
@[simp] theorem State.respond_pins (s : State) (request : List Byte) (r : Reply) : (s.respond request r).pins = s.pins := rfl
@[simp] theorem State.respond_pending (s : State) (request : List Byte) (r : Reply) : (s.respond request r).pending = s.pending := rfl

@[simp] theorem State.arrive_resetAsserted (s : State) (arriving : Option HostRequest) : (s.arrive arriving).resetAsserted = s.resetAsserted := rfl
@[simp] theorem State.arrive_mode (s : State) (arriving : Option HostRequest) : (s.arrive arriving).mode = s.mode := rfl
@[simp] theorem State.arrive_armOption (s : State) (arriving : Option HostRequest) : (s.arrive arriving).armOption = s.armOption := rfl
@[simp] theorem State.arrive_remembered (s : State) (arriving : Option HostRequest) : (s.arrive arriving).remembered = s.remembered := rfl
@[simp] theorem State.arrive_regions (s : State) (arriving : Option HostRequest) : (s.arrive arriving).regions = s.regions := rfl
@[simp] theorem State.arrive_merge (s : State) (arriving : Option HostRequest) : (s.arrive arriving).merge = s.merge := rfl
@[simp] theorem State.arrive_groups (s : State) (arriving : Option HostRequest) : (s.arrive arriving).groups = s.groups := rfl
@[simp] theorem State.arrive_scrub (s : State) (arriving : Option HostRequest) : (s.arrive arriving).scrub = s.scrub := rfl
@[simp] theorem State.arrive_port (s : State) (arriving : Option HostRequest) : (s.arrive arriving).port = s.port := rfl
@[simp] theorem State.arrive_events (s : State) (arriving : Option HostRequest) : (s.arrive arriving).events = s.events := rfl
@[simp] theorem State.arrive_link (s : State) (arriving : Option HostRequest) : (s.arrive arriving).link = s.link := rfl
@[simp] theorem State.arrive_sent (s : State) (arriving : Option HostRequest) : (s.arrive arriving).sent = s.sent := rfl
@[simp] theorem State.arrive_pins (s : State) (arriving : Option HostRequest) : (s.arrive arriving).pins = s.pins := rfl
@[simp] theorem State.arrive_pending (s : State) (arriving : Option HostRequest) : (s.arrive arriving).pending = s.pending := rfl

@[simp] theorem State.pauseScrub_resetAsserted (s : State) : (s.pauseScrub).resetAsserted = s.resetAsserted := rfl
@[simp] theorem State.pauseScrub_mode (s : State) : (s.pauseScrub).mode = s.mode := rfl
@[simp] theorem State.pauseScrub_armOption (s : State) : (s.pauseScrub).armOption = s.armOption := rfl
@[simp] theorem State.pauseScrub_remembered (s : State) : (s.pauseScrub).remembered = s.remembered := rfl
@[simp] theorem State.pauseScrub_regions (s : State) : (s.pauseScrub).regions = s.regions := rfl
@[simp] theorem State.pauseScrub_host (s : State) : (s.pauseScrub).host = s.host := rfl
@[simp] theorem State.pauseScrub_merge (s : State) : (s.pauseScrub).merge = s.merge := rfl
@[simp] theorem State.pauseScrub_groups (s : State) : (s.pauseScrub).groups = s.groups := rfl
@[simp] theorem State.pauseScrub_events (s : State) : (s.pauseScrub).events = s.events := rfl
@[simp] theorem State.pauseScrub_link (s : State) : (s.pauseScrub).link = s.link := rfl
@[simp] theorem State.pauseScrub_sent (s : State) : (s.pauseScrub).sent = s.sent := rfl
@[simp] theorem State.pauseScrub_pins (s : State) : (s.pauseScrub).pins = s.pins := rfl
@[simp] theorem State.pauseScrub_pending (s : State) : (s.pauseScrub).pending = s.pending := rfl

@[simp] theorem State.discardJobs_resetAsserted (s : State) : (s.discardJobs).resetAsserted = s.resetAsserted := rfl
@[simp] theorem State.discardJobs_mode (s : State) : (s.discardJobs).mode = s.mode := rfl
@[simp] theorem State.discardJobs_armOption (s : State) : (s.discardJobs).armOption = s.armOption := rfl
@[simp] theorem State.discardJobs_remembered (s : State) : (s.discardJobs).remembered = s.remembered := rfl
@[simp] theorem State.discardJobs_regions (s : State) : (s.discardJobs).regions = s.regions := rfl
@[simp] theorem State.discardJobs_host (s : State) : (s.discardJobs).host = s.host := rfl
@[simp] theorem State.discardJobs_merge (s : State) : (s.discardJobs).merge = s.merge := rfl
@[simp] theorem State.discardJobs_groups (s : State) : (s.discardJobs).groups = s.groups := rfl
@[simp] theorem State.discardJobs_events (s : State) : (s.discardJobs).events = s.events := rfl
@[simp] theorem State.discardJobs_link (s : State) : (s.discardJobs).link = s.link := rfl
@[simp] theorem State.discardJobs_sent (s : State) : (s.discardJobs).sent = s.sent := rfl
@[simp] theorem State.discardJobs_pins (s : State) : (s.discardJobs).pins = s.pins := rfl
@[simp] theorem State.discardJobs_pending (s : State) : (s.discardJobs).pending = s.pending := rfl

@[simp] theorem State.appendJobs_resetAsserted (s : State) (jobs : List ScrubJob) : (s.appendJobs jobs).resetAsserted = s.resetAsserted := rfl
@[simp] theorem State.appendJobs_mode (s : State) (jobs : List ScrubJob) : (s.appendJobs jobs).mode = s.mode := rfl
@[simp] theorem State.appendJobs_armOption (s : State) (jobs : List ScrubJob) : (s.appendJobs jobs).armOption = s.armOption := rfl
@[simp] theorem State.appendJobs_remembered (s : State) (jobs : List ScrubJob) : (s.appendJobs jobs).remembered = s.remembered := rfl
@[simp] theorem State.appendJobs_regions (s : State) (jobs : List ScrubJob) : (s.appendJobs jobs).regions = s.regions := rfl
@[simp] theorem State.appendJobs_host (s : State) (jobs : List ScrubJob) : (s.appendJobs jobs).host = s.host := rfl
@[simp] theorem State.appendJobs_merge (s : State) (jobs : List ScrubJob) : (s.appendJobs jobs).merge = s.merge := rfl
@[simp] theorem State.appendJobs_groups (s : State) (jobs : List ScrubJob) : (s.appendJobs jobs).groups = s.groups := rfl
@[simp] theorem State.appendJobs_port (s : State) (jobs : List ScrubJob) : (s.appendJobs jobs).port = s.port := rfl
@[simp] theorem State.appendJobs_events (s : State) (jobs : List ScrubJob) : (s.appendJobs jobs).events = s.events := rfl
@[simp] theorem State.appendJobs_link (s : State) (jobs : List ScrubJob) : (s.appendJobs jobs).link = s.link := rfl
@[simp] theorem State.appendJobs_sent (s : State) (jobs : List ScrubJob) : (s.appendJobs jobs).sent = s.sent := rfl
@[simp] theorem State.appendJobs_pins (s : State) (jobs : List ScrubJob) : (s.appendJobs jobs).pins = s.pins := rfl
@[simp] theorem State.appendJobs_pending (s : State) (jobs : List ScrubJob) : (s.appendJobs jobs).pending = s.pending := rfl

@[simp] theorem State.issue_resetAsserted (s : State) (owner : Owner) (a : Addr) (request : MemRequest) (now : Nat) (toScrub : Bool) : (s.issue owner a request now toScrub).resetAsserted = s.resetAsserted := rfl
@[simp] theorem State.issue_mode (s : State) (owner : Owner) (a : Addr) (request : MemRequest) (now : Nat) (toScrub : Bool) : (s.issue owner a request now toScrub).mode = s.mode := rfl
@[simp] theorem State.issue_armOption (s : State) (owner : Owner) (a : Addr) (request : MemRequest) (now : Nat) (toScrub : Bool) : (s.issue owner a request now toScrub).armOption = s.armOption := rfl
@[simp] theorem State.issue_remembered (s : State) (owner : Owner) (a : Addr) (request : MemRequest) (now : Nat) (toScrub : Bool) : (s.issue owner a request now toScrub).remembered = s.remembered := rfl
@[simp] theorem State.issue_regions (s : State) (owner : Owner) (a : Addr) (request : MemRequest) (now : Nat) (toScrub : Bool) : (s.issue owner a request now toScrub).regions = s.regions := rfl
@[simp] theorem State.issue_host (s : State) (owner : Owner) (a : Addr) (request : MemRequest) (now : Nat) (toScrub : Bool) : (s.issue owner a request now toScrub).host = s.host := rfl
@[simp] theorem State.issue_merge (s : State) (owner : Owner) (a : Addr) (request : MemRequest) (now : Nat) (toScrub : Bool) : (s.issue owner a request now toScrub).merge = s.merge := rfl
@[simp] theorem State.issue_groups (s : State) (owner : Owner) (a : Addr) (request : MemRequest) (now : Nat) (toScrub : Bool) : (s.issue owner a request now toScrub).groups = s.groups := rfl
@[simp] theorem State.issue_scrub (s : State) (owner : Owner) (a : Addr) (request : MemRequest) (now : Nat) (toScrub : Bool) : (s.issue owner a request now toScrub).scrub = s.scrub := rfl
@[simp] theorem State.issue_events (s : State) (owner : Owner) (a : Addr) (request : MemRequest) (now : Nat) (toScrub : Bool) : (s.issue owner a request now toScrub).events = s.events := rfl
@[simp] theorem State.issue_link (s : State) (owner : Owner) (a : Addr) (request : MemRequest) (now : Nat) (toScrub : Bool) : (s.issue owner a request now toScrub).link = s.link := rfl
@[simp] theorem State.issue_pins (s : State) (owner : Owner) (a : Addr) (request : MemRequest) (now : Nat) (toScrub : Bool) : (s.issue owner a request now toScrub).pins = s.pins := rfl
@[simp] theorem State.issue_pending (s : State) (owner : Owner) (a : Addr) (request : MemRequest) (now : Nat) (toScrub : Bool) : (s.issue owner a request now toScrub).pending = s.pending := rfl

@[simp] theorem State.unblockAll_resetAsserted (s : State) (stamp : Nat) : (s.unblockAll stamp).resetAsserted = s.resetAsserted := rfl
@[simp] theorem State.unblockAll_mode (s : State) (stamp : Nat) : (s.unblockAll stamp).mode = s.mode := rfl
@[simp] theorem State.unblockAll_armOption (s : State) (stamp : Nat) : (s.unblockAll stamp).armOption = s.armOption := rfl
@[simp] theorem State.unblockAll_remembered (s : State) (stamp : Nat) : (s.unblockAll stamp).remembered = s.remembered := rfl
@[simp] theorem State.unblockAll_regions (s : State) (stamp : Nat) : (s.unblockAll stamp).regions = s.regions := rfl
@[simp] theorem State.unblockAll_host (s : State) (stamp : Nat) : (s.unblockAll stamp).host = s.host := rfl
@[simp] theorem State.unblockAll_groups (s : State) (stamp : Nat) : (s.unblockAll stamp).groups = s.groups := rfl
@[simp] theorem State.unblockAll_scrub (s : State) (stamp : Nat) : (s.unblockAll stamp).scrub = s.scrub := rfl
@[simp] theorem State.unblockAll_events (s : State) (stamp : Nat) : (s.unblockAll stamp).events = s.events := rfl
@[simp] theorem State.unblockAll_link (s : State) (stamp : Nat) : (s.unblockAll stamp).link = s.link := rfl
@[simp] theorem State.unblockAll_sent (s : State) (stamp : Nat) : (s.unblockAll stamp).sent = s.sent := rfl
@[simp] theorem State.unblockAll_pins (s : State) (stamp : Nat) : (s.unblockAll stamp).pins = s.pins := rfl
@[simp] theorem State.unblockAll_pending (s : State) (stamp : Nat) : (s.unblockAll stamp).pending = s.pending := rfl

@[simp] theorem State.enterHeld_resetAsserted (s : State) (g : GroupIx) : (s.enterHeld g).resetAsserted = s.resetAsserted := rfl
@[simp] theorem State.enterHeld_mode (s : State) (g : GroupIx) : (s.enterHeld g).mode = s.mode := rfl
@[simp] theorem State.enterHeld_armOption (s : State) (g : GroupIx) : (s.enterHeld g).armOption = s.armOption := rfl
@[simp] theorem State.enterHeld_remembered (s : State) (g : GroupIx) : (s.enterHeld g).remembered = s.remembered := rfl
@[simp] theorem State.enterHeld_regions (s : State) (g : GroupIx) : (s.enterHeld g).regions = s.regions := rfl
@[simp] theorem State.enterHeld_host (s : State) (g : GroupIx) : (s.enterHeld g).host = s.host := rfl
@[simp] theorem State.enterHeld_merge (s : State) (g : GroupIx) : (s.enterHeld g).merge = s.merge := rfl
@[simp] theorem State.enterHeld_scrub (s : State) (g : GroupIx) : (s.enterHeld g).scrub = s.scrub := rfl
@[simp] theorem State.enterHeld_port (s : State) (g : GroupIx) : (s.enterHeld g).port = s.port := rfl
@[simp] theorem State.enterHeld_link (s : State) (g : GroupIx) : (s.enterHeld g).link = s.link := rfl
@[simp] theorem State.enterHeld_sent (s : State) (g : GroupIx) : (s.enterHeld g).sent = s.sent := rfl
@[simp] theorem State.enterHeld_pins (s : State) (g : GroupIx) : (s.enterHeld g).pins = s.pins := rfl
@[simp] theorem State.enterHeld_pending (s : State) (g : GroupIx) : (s.enterHeld g).pending = s.pending := rfl

@[simp] theorem State.endStarting_resetAsserted (s : State) : (s.endStarting).resetAsserted = s.resetAsserted := rfl
@[simp] theorem State.endStarting_armOption (s : State) : (s.endStarting).armOption = s.armOption := rfl
@[simp] theorem State.endStarting_remembered (s : State) : (s.endStarting).remembered = s.remembered := rfl
@[simp] theorem State.endStarting_regions (s : State) : (s.endStarting).regions = s.regions := rfl
@[simp] theorem State.endStarting_host (s : State) : (s.endStarting).host = s.host := rfl
@[simp] theorem State.endStarting_merge (s : State) : (s.endStarting).merge = s.merge := rfl
@[simp] theorem State.endStarting_scrub (s : State) : (s.endStarting).scrub = s.scrub := rfl
@[simp] theorem State.endStarting_port (s : State) : (s.endStarting).port = s.port := rfl
@[simp] theorem State.endStarting_link (s : State) : (s.endStarting).link = s.link := rfl
@[simp] theorem State.endStarting_sent (s : State) : (s.endStarting).sent = s.sent := rfl
@[simp] theorem State.endStarting_pins (s : State) : (s.endStarting).pins = s.pins := rfl
@[simp] theorem State.endStarting_pending (s : State) : (s.endStarting).pending = s.pending := rfl

@[simp] theorem State.endStopping_resetAsserted (s : State) : (s.endStopping).resetAsserted = s.resetAsserted := rfl
@[simp] theorem State.endStopping_regions (s : State) : (s.endStopping).regions = s.regions := rfl
@[simp] theorem State.endStopping_host (s : State) : (s.endStopping).host = s.host := rfl
@[simp] theorem State.endStopping_merge (s : State) : (s.endStopping).merge = s.merge := rfl
@[simp] theorem State.endStopping_scrub (s : State) : (s.endStopping).scrub = s.scrub := rfl
@[simp] theorem State.endStopping_port (s : State) : (s.endStopping).port = s.port := rfl
@[simp] theorem State.endStopping_link (s : State) : (s.endStopping).link = s.link := rfl
@[simp] theorem State.endStopping_sent (s : State) : (s.endStopping).sent = s.sent := rfl
@[simp] theorem State.endStopping_pins (s : State) : (s.endStopping).pins = s.pins := rfl
@[simp] theorem State.endStopping_pending (s : State) : (s.endStopping).pending = s.pending := rfl

@[simp] theorem State.recoverPort_resetAsserted (s : State) : (s.recoverPort).resetAsserted = s.resetAsserted := rfl
@[simp] theorem State.recoverPort_mode (s : State) : (s.recoverPort).mode = s.mode := rfl
@[simp] theorem State.recoverPort_armOption (s : State) : (s.recoverPort).armOption = s.armOption := rfl
@[simp] theorem State.recoverPort_remembered (s : State) : (s.recoverPort).remembered = s.remembered := rfl
@[simp] theorem State.recoverPort_regions (s : State) : (s.recoverPort).regions = s.regions := rfl
@[simp] theorem State.recoverPort_host (s : State) : (s.recoverPort).host = s.host := rfl
@[simp] theorem State.recoverPort_merge (s : State) : (s.recoverPort).merge = s.merge := rfl
@[simp] theorem State.recoverPort_groups (s : State) : (s.recoverPort).groups = s.groups := rfl
@[simp] theorem State.recoverPort_link (s : State) : (s.recoverPort).link = s.link := rfl
@[simp] theorem State.recoverPort_sent (s : State) : (s.recoverPort).sent = s.sent := rfl
@[simp] theorem State.recoverPort_pins (s : State) : (s.recoverPort).pins = s.pins := rfl
@[simp] theorem State.recoverPort_pending (s : State) : (s.recoverPort).pending = s.pending := rfl

@[simp] theorem State.compute_resetAsserted (s : State) (e : MergeEntry) (data : Word64) : (s.compute e data).resetAsserted = s.resetAsserted := rfl
@[simp] theorem State.compute_mode (s : State) (e : MergeEntry) (data : Word64) : (s.compute e data).mode = s.mode := rfl
@[simp] theorem State.compute_armOption (s : State) (e : MergeEntry) (data : Word64) : (s.compute e data).armOption = s.armOption := rfl
@[simp] theorem State.compute_remembered (s : State) (e : MergeEntry) (data : Word64) : (s.compute e data).remembered = s.remembered := rfl
@[simp] theorem State.compute_host (s : State) (e : MergeEntry) (data : Word64) : (s.compute e data).host = s.host := rfl
@[simp] theorem State.compute_groups (s : State) (e : MergeEntry) (data : Word64) : (s.compute e data).groups = s.groups := rfl
@[simp] theorem State.compute_scrub (s : State) (e : MergeEntry) (data : Word64) : (s.compute e data).scrub = s.scrub := rfl
@[simp] theorem State.compute_port (s : State) (e : MergeEntry) (data : Word64) : (s.compute e data).port = s.port := rfl
@[simp] theorem State.compute_link (s : State) (e : MergeEntry) (data : Word64) : (s.compute e data).link = s.link := rfl
@[simp] theorem State.compute_sent (s : State) (e : MergeEntry) (data : Word64) : (s.compute e data).sent = s.sent := rfl
@[simp] theorem State.compute_pins (s : State) (e : MergeEntry) (data : Word64) : (s.compute e data).pins = s.pins := rfl
@[simp] theorem State.compute_pending (s : State) (e : MergeEntry) (data : Word64) : (s.compute e data).pending = s.pending := rfl

@[simp] theorem State.disarmStarting_resetAsserted (s : State) : (s.disarmStarting).resetAsserted = s.resetAsserted := rfl
@[simp] theorem State.disarmStarting_remembered (s : State) : (s.disarmStarting).remembered = s.remembered := rfl
@[simp] theorem State.disarmStarting_regions (s : State) : (s.disarmStarting).regions = s.regions := rfl
@[simp] theorem State.disarmStarting_host (s : State) : (s.disarmStarting).host = s.host := rfl
@[simp] theorem State.disarmStarting_merge (s : State) : (s.disarmStarting).merge = s.merge := rfl
@[simp] theorem State.disarmStarting_groups (s : State) : (s.disarmStarting).groups = s.groups := rfl
@[simp] theorem State.disarmStarting_link (s : State) : (s.disarmStarting).link = s.link := rfl
@[simp] theorem State.disarmStarting_sent (s : State) : (s.disarmStarting).sent = s.sent := rfl
@[simp] theorem State.disarmStarting_pins (s : State) : (s.disarmStarting).pins = s.pins := rfl
@[simp] theorem State.disarmStarting_pending (s : State) : (s.disarmStarting).pending = s.pending := rfl

@[simp] theorem State.dropJob_resetAsserted (s : State) (rest : List ScrubJob) : (s.dropJob rest).resetAsserted = s.resetAsserted := rfl
@[simp] theorem State.dropJob_mode (s : State) (rest : List ScrubJob) : (s.dropJob rest).mode = s.mode := rfl
@[simp] theorem State.dropJob_armOption (s : State) (rest : List ScrubJob) : (s.dropJob rest).armOption = s.armOption := rfl
@[simp] theorem State.dropJob_remembered (s : State) (rest : List ScrubJob) : (s.dropJob rest).remembered = s.remembered := rfl
@[simp] theorem State.dropJob_regions (s : State) (rest : List ScrubJob) : (s.dropJob rest).regions = s.regions := rfl
@[simp] theorem State.dropJob_host (s : State) (rest : List ScrubJob) : (s.dropJob rest).host = s.host := rfl
@[simp] theorem State.dropJob_merge (s : State) (rest : List ScrubJob) : (s.dropJob rest).merge = s.merge := rfl
@[simp] theorem State.dropJob_groups (s : State) (rest : List ScrubJob) : (s.dropJob rest).groups = s.groups := rfl
@[simp] theorem State.dropJob_port (s : State) (rest : List ScrubJob) : (s.dropJob rest).port = s.port := rfl
@[simp] theorem State.dropJob_events (s : State) (rest : List ScrubJob) : (s.dropJob rest).events = s.events := rfl
@[simp] theorem State.dropJob_link (s : State) (rest : List ScrubJob) : (s.dropJob rest).link = s.link := rfl
@[simp] theorem State.dropJob_sent (s : State) (rest : List ScrubJob) : (s.dropJob rest).sent = s.sent := rfl
@[simp] theorem State.dropJob_pins (s : State) (rest : List ScrubJob) : (s.dropJob rest).pins = s.pins := rfl
@[simp] theorem State.dropJob_pending (s : State) (rest : List ScrubJob) : (s.dropJob rest).pending = s.pending := rfl

/-! ### What the updates write -/

@[simp] theorem State.raise_events (s : State) (r : Report) : (s.raise r).events = s.events.raise r := rfl
@[simp] theorem State.raiseAll_events (s : State) (rs : List Report) :
    (s.raiseAll rs).events = rs.foldl EventBlock.raise s.events := rfl
@[simp] theorem State.answer_sent_host (s : State) (r : HostResponse) : (s.answer r).sent.host = s.sent.host ++ [r] := rfl
@[simp] theorem State.answer_sent_memory (s : State) (r : HostResponse) : (s.answer r).sent.memory = s.sent.memory := rfl
@[simp] theorem State.sendDown_sent_memory (s : State) (m : MemRequest) : (s.sendDown m).sent.memory = s.sent.memory ++ [m] := rfl
@[simp] theorem State.sendDown_sent_host (s : State) (m : MemRequest) : (s.sendDown m).sent.host = s.sent.host := rfl
@[simp] theorem State.setGroup_groups (s : State) (g : GroupIx) (r : Group) : (s.setGroup g r).groups = s.groups.set g r := rfl
@[simp] theorem State.setQueue_queue (s : State) (q : List MergeEntry) : (s.setQueue q).merge.queue = q := rfl
@[simp] theorem State.setQueue_hold (s : State) (q : List MergeEntry) : (s.setQueue q).merge.hold = s.merge.hold := rfl
@[simp] theorem State.setQueue_nextStamp (s : State) (q : List MergeEntry) :
    (s.setQueue q).merge.nextStamp = s.merge.nextStamp := rfl
@[simp] theorem State.setIntake_intake (s : State) (i : Intake) : (s.setIntake i).host.intake = i := rfl
@[simp] theorem State.setIntake_channel (s : State) (i : Intake) : (s.setIntake i).host.channel = s.host.channel := rfl
@[simp] theorem State.setIntake_records (s : State) (i : Intake) : (s.setIntake i).host.records = s.host.records := rfl
@[simp] theorem State.openRecord_records (s : State) (r : TxRecord) : (s.openRecord r).host.records = s.host.records ++ [r] := rfl
@[simp] theorem State.openRecord_intake (s : State) (r : TxRecord) : (s.openRecord r).host.intake = s.host.intake := rfl
@[simp] theorem State.openRecord_channel (s : State) (r : TxRecord) : (s.openRecord r).host.channel = s.host.channel := rfl
@[simp] theorem State.closeRecord_records (s : State) (tag : Tag) :
    (s.closeRecord tag).host.records = dropRecord s.host.records tag := rfl
@[simp] theorem State.closeRecord_intake (s : State) (tag : Tag) : (s.closeRecord tag).host.intake = s.host.intake := rfl
@[simp] theorem State.closeRecord_channel (s : State) (tag : Tag) : (s.closeRecord tag).host.channel = s.host.channel := rfl
@[simp] theorem State.produce_offered (s : State) (ws : List PassWord) : (s.produce ws).port.offered = s.port.offered ++ ws := rfl
@[simp] theorem State.produce_port_state (s : State) (ws : List PassWord) : (s.produce ws).port.state = s.port.state := rfl
@[simp] theorem State.produce_outstanding (s : State) (ws : List PassWord) :
    (s.produce ws).port.outstanding = s.port.outstanding := rfl
@[simp] theorem State.produce_starvation (s : State) (ws : List PassWord) : (s.produce ws).port.starvation = s.port.starvation := rfl
@[simp] theorem State.produce_timeout (s : State) (ws : List PassWord) : (s.produce ws).port.timeout = s.port.timeout := rfl
@[simp] theorem State.produce_share (s : State) (ws : List PassWord) : (s.produce ws).port.share = s.port.share := rfl
@[simp] theorem State.produce_probeNumber (s : State) (ws : List PassWord) :
    (s.produce ws).port.probeNumber = s.port.probeNumber := rfl
@[simp] theorem State.respond_link (s : State) (request : List Byte) (r : Reply) :
    (s.respond request r).link = { Link.opened with receiver := request, response := r.frame } := rfl
@[simp] theorem State.unlessReset_asserted {s : State} (h : s.resetAsserted = true) (t : State) : s.unlessReset t = s := if_pos h
@[simp] theorem State.unlessReset_released {s : State} (h : s.resetAsserted = false) (t : State) : s.unlessReset t = t :=
  if_neg (by simp [h])
@[simp] theorem Link.reset_receiver (l : Link) : l.reset.receiver = [] := rfl
@[simp] theorem Link.reset_response (l : Link) : l.reset.response = [] := rfl
@[simp] theorem Link.reset_selected (l : Link) : l.reset.selected = l.selected := rfl
@[simp] theorem Link.released_receiver (l : Link) : l.released.receiver = l.receiver := rfl
@[simp] theorem Link.released_response (l : Link) : l.released.response = l.response := rfl
@[simp] theorem Link.released_selected (l : Link) : l.released.selected = l.selected := rfl
@[simp] theorem State.arrive_channel (s : State) (arriving : Option HostRequest) :
    (s.arrive arriving).host.channel = s.host.channel ++ arriving.toList := rfl
@[simp] theorem State.arrive_intake (s : State) (arriving : Option HostRequest) :
    (s.arrive arriving).host.intake = s.host.intake := rfl
@[simp] theorem State.arrive_records (s : State) (arriving : Option HostRequest) :
    (s.arrive arriving).host.records = s.host.records := rfl
@[simp] theorem State.pauseScrub_jobs (s : State) : s.pauseScrub.scrub.jobs = s.scrub.jobs := rfl
@[simp] theorem State.pauseScrub_port_state (s : State) : s.pauseScrub.port.state = s.port.state := rfl
@[simp] theorem State.pauseScrub_outstanding (s : State) : s.pauseScrub.port.outstanding = s.port.outstanding := rfl
@[simp] theorem State.pauseScrub_offered (s : State) : s.pauseScrub.port.offered = s.port.offered := rfl
@[simp] theorem State.discardJobs_jobs (s : State) : s.discardJobs.scrub.jobs = [] := rfl
@[simp] theorem State.discardJobs_engine (s : State) : s.discardJobs.scrub.engine = .idle := rfl
@[simp] theorem State.discardJobs_port_state (s : State) : s.discardJobs.port.state = s.port.state := rfl
@[simp] theorem State.discardJobs_offered (s : State) : s.discardJobs.port.offered = s.port.offered := rfl
@[simp] theorem State.discardJobs_outstanding (s : State) :
    s.discardJobs.port.outstanding = s.port.outstanding.map Outstanding.orphan := rfl
@[simp] theorem State.appendJobs_jobs (s : State) (jobs : List ScrubJob) : (s.appendJobs jobs).scrub.jobs = s.scrub.jobs ++ jobs := rfl
@[simp] theorem State.issue_outstanding (s : State) (owner : Owner) (a : Addr) (request : MemRequest) (now : Nat) (toScrub : Bool) :
    (s.issue owner a request now toScrub).port.outstanding =
      s.port.outstanding ++ [{ owner := owner, addr := a, deadline := now + s.port.timeout }] := rfl
@[simp] theorem State.issue_port_state (s : State) (owner : Owner) (a : Addr) (request : MemRequest) (now : Nat) (toScrub : Bool) :
    (s.issue owner a request now toScrub).port.state = s.port.state := rfl
@[simp] theorem State.issue_offered (s : State) (owner : Owner) (a : Addr) (request : MemRequest) (now : Nat) (toScrub : Bool) :
    (s.issue owner a request now toScrub).port.offered = s.port.offered := rfl
@[simp] theorem State.issue_sent_host (s : State) (owner : Owner) (a : Addr) (request : MemRequest) (now : Nat) (toScrub : Bool) :
    (s.issue owner a request now toScrub).sent.host = s.sent.host := rfl
@[simp] theorem State.issue_sent_memory (s : State) (owner : Owner) (a : Addr) (request : MemRequest) (now : Nat) (toScrub : Bool) :
    (s.issue owner a request now toScrub).sent.memory = s.sent.memory ++ [request] := rfl
@[simp] theorem State.unblockAll_queue (s : State) (stamp : Nat) : (s.unblockAll stamp).merge.queue = s.merge.queue := rfl
@[simp] theorem State.unblockAll_hold (s : State) (stamp : Nat) :
    (s.unblockAll stamp).merge.hold = s.merge.hold.map fun h => h.unblock stamp := rfl
@[simp] theorem State.unblockAll_nextStamp (s : State) (stamp : Nat) :
    (s.unblockAll stamp).merge.nextStamp = s.merge.nextStamp := rfl
@[simp] theorem State.unblockAll_port_state (s : State) (stamp : Nat) : (s.unblockAll stamp).port.state = s.port.state := rfl
@[simp] theorem State.unblockAll_outstanding (s : State) (stamp : Nat) :
    (s.unblockAll stamp).port.outstanding = s.port.outstanding := rfl
@[simp] theorem State.endStarting_mode (s : State) : s.endStarting.mode = .run := rfl
@[simp] theorem State.endStopping_mode (s : State) : s.endStopping.mode = .bypass := rfl
@[simp] theorem State.endStopping_groups (s : State) : s.endStopping.groups = s.groups.map Group.atBypass := rfl
@[simp] theorem State.endStopping_remembered (s : State) : s.endStopping.remembered = s.groups.map Group.active := rfl
@[simp] theorem State.endStopping_armOption (s : State) : s.endStopping.armOption = none := rfl
@[simp] theorem State.recoverPort_port_state (s : State) : s.recoverPort.port.state = .up := rfl
@[simp] theorem State.recoverPort_outstanding (s : State) : s.recoverPort.port.outstanding = s.port.outstanding := rfl
@[simp] theorem State.recoverPort_offered (s : State) : s.recoverPort.port.offered = s.port.offered := rfl
@[simp] theorem State.recoverPort_jobs (s : State) : s.recoverPort.scrub.jobs = s.scrub.jobs := rfl
@[simp] theorem State.compute_hold (s : State) (e : MergeEntry) (data : Word64) :
    (s.compute e data).merge.hold = s.merge.hold := rfl
@[simp] theorem State.compute_nextStamp (s : State) (e : MergeEntry) (data : Word64) :
    (s.compute e data).merge.nextStamp = s.merge.nextStamp := rfl
@[simp] theorem State.disarmStarting_mode (s : State) : s.disarmStarting.mode = .bypass := rfl
@[simp] theorem State.disarmStarting_armOption (s : State) : s.disarmStarting.armOption = none := rfl
@[simp] theorem State.disarmStarting_jobs (s : State) : s.disarmStarting.scrub.jobs = [] := rfl

end Sys2Proof.Machine
end

