-- ==== Sys2Proof/Laws/Ops.lean ====
section
/-! SUPPORT. What each shared operation leaves unchanged, and for the main ones everything they can do, said once. -/

namespace Sys2Proof.Machine

/-! ### Frames of the composed operations -/

@[simp] theorem State.takeFlip_resetAsserted (s : State) (g : GroupIx) : (s.takeFlip g).resetAsserted = s.resetAsserted := by unfold State.takeFlip; dsimp only; split <;> rfl
@[simp] theorem State.takeFlip_mode (s : State) (g : GroupIx) : (s.takeFlip g).mode = s.mode := by unfold State.takeFlip; dsimp only; split <;> rfl
@[simp] theorem State.takeFlip_armOption (s : State) (g : GroupIx) : (s.takeFlip g).armOption = s.armOption := by unfold State.takeFlip; dsimp only; split <;> rfl
@[simp] theorem State.takeFlip_remembered (s : State) (g : GroupIx) : (s.takeFlip g).remembered = s.remembered := by unfold State.takeFlip; dsimp only; split <;> rfl
@[simp] theorem State.takeFlip_regions (s : State) (g : GroupIx) : (s.takeFlip g).regions = s.regions := by unfold State.takeFlip; dsimp only; split <;> rfl
@[simp] theorem State.takeFlip_host (s : State) (g : GroupIx) : (s.takeFlip g).host = s.host := by unfold State.takeFlip; dsimp only; split <;> rfl
@[simp] theorem State.takeFlip_merge (s : State) (g : GroupIx) : (s.takeFlip g).merge = s.merge := by unfold State.takeFlip; dsimp only; split <;> rfl
@[simp] theorem State.takeFlip_scrub (s : State) (g : GroupIx) : (s.takeFlip g).scrub = s.scrub := by unfold State.takeFlip; dsimp only; split <;> rfl
@[simp] theorem State.takeFlip_port (s : State) (g : GroupIx) : (s.takeFlip g).port = s.port := by unfold State.takeFlip; dsimp only; split <;> rfl
@[simp] theorem State.takeFlip_link (s : State) (g : GroupIx) : (s.takeFlip g).link = s.link := by unfold State.takeFlip; dsimp only; split <;> rfl
@[simp] theorem State.takeFlip_sent (s : State) (g : GroupIx) : (s.takeFlip g).sent = s.sent := by unfold State.takeFlip; dsimp only; split <;> rfl
@[simp] theorem State.takeFlip_pins (s : State) (g : GroupIx) : (s.takeFlip g).pins = s.pins := by unfold State.takeFlip; dsimp only; split <;> rfl
@[simp] theorem State.takeFlip_pending (s : State) (g : GroupIx) : (s.takeFlip g).pending = s.pending := by unfold State.takeFlip; dsimp only; split <;> rfl

@[simp] theorem State.cutPoint_resetAsserted (s : State) (g : GroupIx) : (s.cutPoint g).resetAsserted = s.resetAsserted := by unfold State.cutPoint; dsimp only; split <;> simp
@[simp] theorem State.cutPoint_mode (s : State) (g : GroupIx) : (s.cutPoint g).mode = s.mode := by unfold State.cutPoint; dsimp only; split <;> simp
@[simp] theorem State.cutPoint_armOption (s : State) (g : GroupIx) : (s.cutPoint g).armOption = s.armOption := by unfold State.cutPoint; dsimp only; split <;> simp
@[simp] theorem State.cutPoint_remembered (s : State) (g : GroupIx) : (s.cutPoint g).remembered = s.remembered := by unfold State.cutPoint; dsimp only; split <;> simp
@[simp] theorem State.cutPoint_regions (s : State) (g : GroupIx) : (s.cutPoint g).regions = s.regions := by unfold State.cutPoint; dsimp only; split <;> simp
@[simp] theorem State.cutPoint_host (s : State) (g : GroupIx) : (s.cutPoint g).host = s.host := by unfold State.cutPoint; dsimp only; split <;> simp
@[simp] theorem State.cutPoint_merge (s : State) (g : GroupIx) : (s.cutPoint g).merge = s.merge := by unfold State.cutPoint; dsimp only; split <;> simp
@[simp] theorem State.cutPoint_scrub (s : State) (g : GroupIx) : (s.cutPoint g).scrub = s.scrub := by unfold State.cutPoint; dsimp only; split <;> simp
@[simp] theorem State.cutPoint_port (s : State) (g : GroupIx) : (s.cutPoint g).port = s.port := by unfold State.cutPoint; dsimp only; split <;> simp
@[simp] theorem State.cutPoint_link (s : State) (g : GroupIx) : (s.cutPoint g).link = s.link := by unfold State.cutPoint; dsimp only; split <;> simp
@[simp] theorem State.cutPoint_sent (s : State) (g : GroupIx) : (s.cutPoint g).sent = s.sent := by unfold State.cutPoint; dsimp only; split <;> simp
@[simp] theorem State.cutPoint_pins (s : State) (g : GroupIx) : (s.cutPoint g).pins = s.pins := by unfold State.cutPoint; dsimp only; split <;> simp
@[simp] theorem State.cutPoint_pending (s : State) (g : GroupIx) : (s.cutPoint g).pending = s.pending := by unfold State.cutPoint; dsimp only; split <;> simp

@[simp] theorem State.reportRemoval_resetAsserted (s : State) (group : Option GroupIx) (bank : Bank) : (s.reportRemoval group bank).resetAsserted = s.resetAsserted := by unfold State.reportRemoval; dsimp only; (repeat' split) <;> simp
@[simp] theorem State.reportRemoval_mode (s : State) (group : Option GroupIx) (bank : Bank) : (s.reportRemoval group bank).mode = s.mode := by unfold State.reportRemoval; dsimp only; (repeat' split) <;> simp
@[simp] theorem State.reportRemoval_armOption (s : State) (group : Option GroupIx) (bank : Bank) : (s.reportRemoval group bank).armOption = s.armOption := by unfold State.reportRemoval; dsimp only; (repeat' split) <;> simp
@[simp] theorem State.reportRemoval_remembered (s : State) (group : Option GroupIx) (bank : Bank) : (s.reportRemoval group bank).remembered = s.remembered := by unfold State.reportRemoval; dsimp only; (repeat' split) <;> simp
@[simp] theorem State.reportRemoval_regions (s : State) (group : Option GroupIx) (bank : Bank) : (s.reportRemoval group bank).regions = s.regions := by unfold State.reportRemoval; dsimp only; (repeat' split) <;> simp
@[simp] theorem State.reportRemoval_host (s : State) (group : Option GroupIx) (bank : Bank) : (s.reportRemoval group bank).host = s.host := by unfold State.reportRemoval; dsimp only; (repeat' split) <;> simp
@[simp] theorem State.reportRemoval_merge (s : State) (group : Option GroupIx) (bank : Bank) : (s.reportRemoval group bank).merge = s.merge := by unfold State.reportRemoval; dsimp only; (repeat' split) <;> simp
@[simp] theorem State.reportRemoval_scrub (s : State) (group : Option GroupIx) (bank : Bank) : (s.reportRemoval group bank).scrub = s.scrub := by unfold State.reportRemoval; dsimp only; (repeat' split) <;> simp
@[simp] theorem State.reportRemoval_port (s : State) (group : Option GroupIx) (bank : Bank) : (s.reportRemoval group bank).port = s.port := by unfold State.reportRemoval; dsimp only; (repeat' split) <;> simp
@[simp] theorem State.reportRemoval_link (s : State) (group : Option GroupIx) (bank : Bank) : (s.reportRemoval group bank).link = s.link := by unfold State.reportRemoval; dsimp only; (repeat' split) <;> simp
@[simp] theorem State.reportRemoval_sent (s : State) (group : Option GroupIx) (bank : Bank) : (s.reportRemoval group bank).sent = s.sent := by unfold State.reportRemoval; dsimp only; (repeat' split) <;> simp
@[simp] theorem State.reportRemoval_pins (s : State) (group : Option GroupIx) (bank : Bank) : (s.reportRemoval group bank).pins = s.pins := by unfold State.reportRemoval; dsimp only; (repeat' split) <;> simp
@[simp] theorem State.reportRemoval_pending (s : State) (group : Option GroupIx) (bank : Bank) : (s.reportRemoval group bank).pending = s.pending := by unfold State.reportRemoval; dsimp only; (repeat' split) <;> simp

@[simp] theorem State.enterReady_resetAsserted (s : State) (g : GroupIx) : (s.enterReady g).resetAsserted = s.resetAsserted := by simp [State.enterReady]
@[simp] theorem State.enterReady_mode (s : State) (g : GroupIx) : (s.enterReady g).mode = s.mode := by simp [State.enterReady]
@[simp] theorem State.enterReady_armOption (s : State) (g : GroupIx) : (s.enterReady g).armOption = s.armOption := by simp [State.enterReady]
@[simp] theorem State.enterReady_remembered (s : State) (g : GroupIx) : (s.enterReady g).remembered = s.remembered := by simp [State.enterReady]
@[simp] theorem State.enterReady_regions (s : State) (g : GroupIx) : (s.enterReady g).regions = s.regions := by simp [State.enterReady]
@[simp] theorem State.enterReady_host (s : State) (g : GroupIx) : (s.enterReady g).host = s.host := by simp [State.enterReady]
@[simp] theorem State.enterReady_merge (s : State) (g : GroupIx) : (s.enterReady g).merge = s.merge := by simp [State.enterReady]
@[simp] theorem State.enterReady_scrub (s : State) (g : GroupIx) : (s.enterReady g).scrub = s.scrub := by simp [State.enterReady]
@[simp] theorem State.enterReady_port (s : State) (g : GroupIx) : (s.enterReady g).port = s.port := by simp [State.enterReady]
@[simp] theorem State.enterReady_link (s : State) (g : GroupIx) : (s.enterReady g).link = s.link := by simp [State.enterReady]
@[simp] theorem State.enterReady_sent (s : State) (g : GroupIx) : (s.enterReady g).sent = s.sent := by simp [State.enterReady]
@[simp] theorem State.enterReady_pins (s : State) (g : GroupIx) : (s.enterReady g).pins = s.pins := by simp [State.enterReady]
@[simp] theorem State.enterReady_pending (s : State) (g : GroupIx) : (s.enterReady g).pending = s.pending := by simp [State.enterReady]

@[simp] theorem State.judgeStopping_resetAsserted (s : State) : (s.judgeStopping).resetAsserted = s.resetAsserted := by unfold State.judgeStopping; split <;> simp
@[simp] theorem State.judgeStopping_regions (s : State) : (s.judgeStopping).regions = s.regions := by unfold State.judgeStopping; split <;> simp
@[simp] theorem State.judgeStopping_host (s : State) : (s.judgeStopping).host = s.host := by unfold State.judgeStopping; split <;> simp
@[simp] theorem State.judgeStopping_merge (s : State) : (s.judgeStopping).merge = s.merge := by unfold State.judgeStopping; split <;> simp
@[simp] theorem State.judgeStopping_scrub (s : State) : (s.judgeStopping).scrub = s.scrub := by unfold State.judgeStopping; split <;> simp
@[simp] theorem State.judgeStopping_port (s : State) : (s.judgeStopping).port = s.port := by unfold State.judgeStopping; split <;> simp
@[simp] theorem State.judgeStopping_link (s : State) : (s.judgeStopping).link = s.link := by unfold State.judgeStopping; split <;> simp
@[simp] theorem State.judgeStopping_sent (s : State) : (s.judgeStopping).sent = s.sent := by unfold State.judgeStopping; split <;> simp
@[simp] theorem State.judgeStopping_pins (s : State) : (s.judgeStopping).pins = s.pins := by unfold State.judgeStopping; split <;> simp
@[simp] theorem State.judgeStopping_pending (s : State) : (s.judgeStopping).pending = s.pending := by unfold State.judgeStopping; split <;> simp

@[simp] theorem State.storeRecord_resetAsserted (s : State) (r : TxRecord) : (s.storeRecord r).resetAsserted = s.resetAsserted := by unfold State.storeRecord; split <;> simp
@[simp] theorem State.storeRecord_mode (s : State) (r : TxRecord) : (s.storeRecord r).mode = s.mode := by unfold State.storeRecord; split <;> simp
@[simp] theorem State.storeRecord_armOption (s : State) (r : TxRecord) : (s.storeRecord r).armOption = s.armOption := by unfold State.storeRecord; split <;> simp
@[simp] theorem State.storeRecord_remembered (s : State) (r : TxRecord) : (s.storeRecord r).remembered = s.remembered := by unfold State.storeRecord; split <;> simp
@[simp] theorem State.storeRecord_regions (s : State) (r : TxRecord) : (s.storeRecord r).regions = s.regions := by unfold State.storeRecord; split <;> simp
@[simp] theorem State.storeRecord_merge (s : State) (r : TxRecord) : (s.storeRecord r).merge = s.merge := by unfold State.storeRecord; split <;> simp
@[simp] theorem State.storeRecord_groups (s : State) (r : TxRecord) : (s.storeRecord r).groups = s.groups := by unfold State.storeRecord; split <;> simp
@[simp] theorem State.storeRecord_scrub (s : State) (r : TxRecord) : (s.storeRecord r).scrub = s.scrub := by unfold State.storeRecord; split <;> simp
@[simp] theorem State.storeRecord_port (s : State) (r : TxRecord) : (s.storeRecord r).port = s.port := by unfold State.storeRecord; split <;> simp
@[simp] theorem State.storeRecord_events (s : State) (r : TxRecord) : (s.storeRecord r).events = s.events := by unfold State.storeRecord; split <;> simp
@[simp] theorem State.storeRecord_link (s : State) (r : TxRecord) : (s.storeRecord r).link = s.link := by unfold State.storeRecord; split <;> simp
@[simp] theorem State.storeRecord_pins (s : State) (r : TxRecord) : (s.storeRecord r).pins = s.pins := by unfold State.storeRecord; split <;> simp
@[simp] theorem State.storeRecord_pending (s : State) (r : TxRecord) : (s.storeRecord r).pending = s.pending := by unfold State.storeRecord; split <;> simp

@[simp] theorem State.completeWord_resetAsserted (s : State) (tag : Tag) (index : Nat) (failed : Bool) (data : Word64) : (s.completeWord tag index failed data).resetAsserted = s.resetAsserted := by unfold State.completeWord; split <;> simp
@[simp] theorem State.completeWord_mode (s : State) (tag : Tag) (index : Nat) (failed : Bool) (data : Word64) : (s.completeWord tag index failed data).mode = s.mode := by unfold State.completeWord; split <;> simp
@[simp] theorem State.completeWord_armOption (s : State) (tag : Tag) (index : Nat) (failed : Bool) (data : Word64) : (s.completeWord tag index failed data).armOption = s.armOption := by unfold State.completeWord; split <;> simp
@[simp] theorem State.completeWord_remembered (s : State) (tag : Tag) (index : Nat) (failed : Bool) (data : Word64) : (s.completeWord tag index failed data).remembered = s.remembered := by unfold State.completeWord; split <;> simp
@[simp] theorem State.completeWord_regions (s : State) (tag : Tag) (index : Nat) (failed : Bool) (data : Word64) : (s.completeWord tag index failed data).regions = s.regions := by unfold State.completeWord; split <;> simp
@[simp] theorem State.completeWord_merge (s : State) (tag : Tag) (index : Nat) (failed : Bool) (data : Word64) : (s.completeWord tag index failed data).merge = s.merge := by unfold State.completeWord; split <;> simp
@[simp] theorem State.completeWord_groups (s : State) (tag : Tag) (index : Nat) (failed : Bool) (data : Word64) : (s.completeWord tag index failed data).groups = s.groups := by unfold State.completeWord; split <;> simp
@[simp] theorem State.completeWord_scrub (s : State) (tag : Tag) (index : Nat) (failed : Bool) (data : Word64) : (s.completeWord tag index failed data).scrub = s.scrub := by unfold State.completeWord; split <;> simp
@[simp] theorem State.completeWord_port (s : State) (tag : Tag) (index : Nat) (failed : Bool) (data : Word64) : (s.completeWord tag index failed data).port = s.port := by unfold State.completeWord; split <;> simp
@[simp] theorem State.completeWord_events (s : State) (tag : Tag) (index : Nat) (failed : Bool) (data : Word64) : (s.completeWord tag index failed data).events = s.events := by unfold State.completeWord; split <;> simp
@[simp] theorem State.completeWord_link (s : State) (tag : Tag) (index : Nat) (failed : Bool) (data : Word64) : (s.completeWord tag index failed data).link = s.link := by unfold State.completeWord; split <;> simp
@[simp] theorem State.completeWord_pins (s : State) (tag : Tag) (index : Nat) (failed : Bool) (data : Word64) : (s.completeWord tag index failed data).pins = s.pins := by unfold State.completeWord; split <;> simp
@[simp] theorem State.completeWord_pending (s : State) (tag : Tag) (index : Nat) (failed : Bool) (data : Word64) : (s.completeWord tag index failed data).pending = s.pending := by unfold State.completeWord; split <;> simp

@[simp] theorem State.withhold_resetAsserted (s : State) (w : PlainWrite) (index : Nat) : (s.withhold w index).resetAsserted = s.resetAsserted := by unfold State.withhold; dsimp only; split <;> simp
@[simp] theorem State.withhold_mode (s : State) (w : PlainWrite) (index : Nat) : (s.withhold w index).mode = s.mode := by unfold State.withhold; dsimp only; split <;> simp
@[simp] theorem State.withhold_armOption (s : State) (w : PlainWrite) (index : Nat) : (s.withhold w index).armOption = s.armOption := by unfold State.withhold; dsimp only; split <;> simp
@[simp] theorem State.withhold_remembered (s : State) (w : PlainWrite) (index : Nat) : (s.withhold w index).remembered = s.remembered := by unfold State.withhold; dsimp only; split <;> simp
@[simp] theorem State.withhold_regions (s : State) (w : PlainWrite) (index : Nat) : (s.withhold w index).regions = s.regions := by unfold State.withhold; dsimp only; split <;> simp
@[simp] theorem State.withhold_merge (s : State) (w : PlainWrite) (index : Nat) : (s.withhold w index).merge = s.merge := by unfold State.withhold; dsimp only; split <;> simp
@[simp] theorem State.withhold_groups (s : State) (w : PlainWrite) (index : Nat) : (s.withhold w index).groups = s.groups := by unfold State.withhold; dsimp only; split <;> simp
@[simp] theorem State.withhold_scrub (s : State) (w : PlainWrite) (index : Nat) : (s.withhold w index).scrub = s.scrub := by unfold State.withhold; dsimp only; split <;> simp
@[simp] theorem State.withhold_port (s : State) (w : PlainWrite) (index : Nat) : (s.withhold w index).port = s.port := by unfold State.withhold; dsimp only; split <;> simp
@[simp] theorem State.withhold_link (s : State) (w : PlainWrite) (index : Nat) : (s.withhold w index).link = s.link := by unfold State.withhold; dsimp only; split <;> simp
@[simp] theorem State.withhold_pins (s : State) (w : PlainWrite) (index : Nat) : (s.withhold w index).pins = s.pins := by unfold State.withhold; dsimp only; split <;> simp
@[simp] theorem State.withhold_pending (s : State) (w : PlainWrite) (index : Nat) : (s.withhold w index).pending = s.pending := by unfold State.withhold; dsimp only; split <;> simp

@[simp] theorem State.offerPlain_resetAsserted (s : State) (w : PlainWrite) : (s.offerPlain w).resetAsserted = s.resetAsserted := by unfold State.offerPlain; (repeat' split) <;> simp
@[simp] theorem State.offerPlain_mode (s : State) (w : PlainWrite) : (s.offerPlain w).mode = s.mode := by unfold State.offerPlain; (repeat' split) <;> simp
@[simp] theorem State.offerPlain_armOption (s : State) (w : PlainWrite) : (s.offerPlain w).armOption = s.armOption := by unfold State.offerPlain; (repeat' split) <;> simp
@[simp] theorem State.offerPlain_remembered (s : State) (w : PlainWrite) : (s.offerPlain w).remembered = s.remembered := by unfold State.offerPlain; (repeat' split) <;> simp
@[simp] theorem State.offerPlain_regions (s : State) (w : PlainWrite) : (s.offerPlain w).regions = s.regions := by unfold State.offerPlain; (repeat' split) <;> simp
@[simp] theorem State.offerPlain_merge (s : State) (w : PlainWrite) : (s.offerPlain w).merge = s.merge := by unfold State.offerPlain; (repeat' split) <;> simp
@[simp] theorem State.offerPlain_groups (s : State) (w : PlainWrite) : (s.offerPlain w).groups = s.groups := by unfold State.offerPlain; (repeat' split) <;> simp
@[simp] theorem State.offerPlain_scrub (s : State) (w : PlainWrite) : (s.offerPlain w).scrub = s.scrub := by unfold State.offerPlain; (repeat' split) <;> simp
@[simp] theorem State.offerPlain_link (s : State) (w : PlainWrite) : (s.offerPlain w).link = s.link := by unfold State.offerPlain; (repeat' split) <;> simp
@[simp] theorem State.offerPlain_pins (s : State) (w : PlainWrite) : (s.offerPlain w).pins = s.pins := by unfold State.offerPlain; (repeat' split) <;> simp
@[simp] theorem State.offerPlain_pending (s : State) (w : PlainWrite) : (s.offerPlain w).pending = s.pending := by unfold State.offerPlain; (repeat' split) <;> simp

@[simp] theorem State.recheckOffered_resetAsserted (s : State) : (s.recheckOffered).resetAsserted = s.resetAsserted := by unfold State.recheckOffered; (repeat' split) <;> simp
@[simp] theorem State.recheckOffered_mode (s : State) : (s.recheckOffered).mode = s.mode := by unfold State.recheckOffered; (repeat' split) <;> simp
@[simp] theorem State.recheckOffered_armOption (s : State) : (s.recheckOffered).armOption = s.armOption := by unfold State.recheckOffered; (repeat' split) <;> simp
@[simp] theorem State.recheckOffered_remembered (s : State) : (s.recheckOffered).remembered = s.remembered := by unfold State.recheckOffered; (repeat' split) <;> simp
@[simp] theorem State.recheckOffered_regions (s : State) : (s.recheckOffered).regions = s.regions := by unfold State.recheckOffered; (repeat' split) <;> simp
@[simp] theorem State.recheckOffered_merge (s : State) : (s.recheckOffered).merge = s.merge := by unfold State.recheckOffered; (repeat' split) <;> simp
@[simp] theorem State.recheckOffered_groups (s : State) : (s.recheckOffered).groups = s.groups := by unfold State.recheckOffered; (repeat' split) <;> simp
@[simp] theorem State.recheckOffered_scrub (s : State) : (s.recheckOffered).scrub = s.scrub := by unfold State.recheckOffered; (repeat' split) <;> simp
@[simp] theorem State.recheckOffered_link (s : State) : (s.recheckOffered).link = s.link := by unfold State.recheckOffered; (repeat' split) <;> simp
@[simp] theorem State.recheckOffered_pins (s : State) : (s.recheckOffered).pins = s.pins := by unfold State.recheckOffered; (repeat' split) <;> simp
@[simp] theorem State.recheckOffered_pending (s : State) : (s.recheckOffered).pending = s.pending := by unfold State.recheckOffered; (repeat' split) <;> simp

@[simp] theorem State.wordPassed_resetAsserted (s : State) (x : PassWord) : (s.wordPassed x).resetAsserted = s.resetAsserted := by unfold State.wordPassed; (repeat' split) <;> simp
@[simp] theorem State.wordPassed_mode (s : State) (x : PassWord) : (s.wordPassed x).mode = s.mode := by unfold State.wordPassed; (repeat' split) <;> simp
@[simp] theorem State.wordPassed_armOption (s : State) (x : PassWord) : (s.wordPassed x).armOption = s.armOption := by unfold State.wordPassed; (repeat' split) <;> simp
@[simp] theorem State.wordPassed_remembered (s : State) (x : PassWord) : (s.wordPassed x).remembered = s.remembered := by unfold State.wordPassed; (repeat' split) <;> simp
@[simp] theorem State.wordPassed_regions (s : State) (x : PassWord) : (s.wordPassed x).regions = s.regions := by unfold State.wordPassed; (repeat' split) <;> simp
@[simp] theorem State.wordPassed_groups (s : State) (x : PassWord) : (s.wordPassed x).groups = s.groups := by unfold State.wordPassed; (repeat' split) <;> simp
@[simp] theorem State.wordPassed_scrub (s : State) (x : PassWord) : (s.wordPassed x).scrub = s.scrub := by unfold State.wordPassed; (repeat' split) <;> simp
@[simp] theorem State.wordPassed_link (s : State) (x : PassWord) : (s.wordPassed x).link = s.link := by unfold State.wordPassed; (repeat' split) <;> simp
@[simp] theorem State.wordPassed_pins (s : State) (x : PassWord) : (s.wordPassed x).pins = s.pins := by unfold State.wordPassed; (repeat' split) <;> simp
@[simp] theorem State.wordPassed_pending (s : State) (x : PassWord) : (s.wordPassed x).pending = s.pending := by unfold State.wordPassed; (repeat' split) <;> simp

@[simp] theorem State.removeEntry_resetAsserted (s : State) (e : MergeEntry) (fault : Option (Cause × ReportedState)) : (s.removeEntry e fault).resetAsserted = s.resetAsserted := by unfold State.removeEntry; cases fault <;> simp
@[simp] theorem State.removeEntry_mode (s : State) (e : MergeEntry) (fault : Option (Cause × ReportedState)) : (s.removeEntry e fault).mode = s.mode := by unfold State.removeEntry; cases fault <;> simp
@[simp] theorem State.removeEntry_armOption (s : State) (e : MergeEntry) (fault : Option (Cause × ReportedState)) : (s.removeEntry e fault).armOption = s.armOption := by unfold State.removeEntry; cases fault <;> simp
@[simp] theorem State.removeEntry_remembered (s : State) (e : MergeEntry) (fault : Option (Cause × ReportedState)) : (s.removeEntry e fault).remembered = s.remembered := by unfold State.removeEntry; cases fault <;> simp
@[simp] theorem State.removeEntry_regions (s : State) (e : MergeEntry) (fault : Option (Cause × ReportedState)) : (s.removeEntry e fault).regions = s.regions := by unfold State.removeEntry; cases fault <;> simp
@[simp] theorem State.removeEntry_host (s : State) (e : MergeEntry) (fault : Option (Cause × ReportedState)) : (s.removeEntry e fault).host = s.host := by unfold State.removeEntry; cases fault <;> simp
@[simp] theorem State.removeEntry_scrub (s : State) (e : MergeEntry) (fault : Option (Cause × ReportedState)) : (s.removeEntry e fault).scrub = s.scrub := by unfold State.removeEntry; cases fault <;> simp
@[simp] theorem State.removeEntry_link (s : State) (e : MergeEntry) (fault : Option (Cause × ReportedState)) : (s.removeEntry e fault).link = s.link := by unfold State.removeEntry; cases fault <;> simp
@[simp] theorem State.removeEntry_sent (s : State) (e : MergeEntry) (fault : Option (Cause × ReportedState)) : (s.removeEntry e fault).sent = s.sent := by unfold State.removeEntry; cases fault <;> simp
@[simp] theorem State.removeEntry_pins (s : State) (e : MergeEntry) (fault : Option (Cause × ReportedState)) : (s.removeEntry e fault).pins = s.pins := by unfold State.removeEntry; cases fault <;> simp
@[simp] theorem State.removeEntry_pending (s : State) (e : MergeEntry) (fault : Option (Cause × ReportedState)) : (s.removeEntry e fault).pending = s.pending := by unfold State.removeEntry; cases fault <;> simp

@[simp] theorem State.finishLiveWrite_resetAsserted (s : State) (w : LiveWrite) : (s.finishLiveWrite w).resetAsserted = s.resetAsserted := by unfold State.finishLiveWrite; dsimp only; split <;> simp
@[simp] theorem State.finishLiveWrite_mode (s : State) (w : LiveWrite) : (s.finishLiveWrite w).mode = s.mode := by unfold State.finishLiveWrite; dsimp only; split <;> simp
@[simp] theorem State.finishLiveWrite_armOption (s : State) (w : LiveWrite) : (s.finishLiveWrite w).armOption = s.armOption := by unfold State.finishLiveWrite; dsimp only; split <;> simp
@[simp] theorem State.finishLiveWrite_remembered (s : State) (w : LiveWrite) : (s.finishLiveWrite w).remembered = s.remembered := by unfold State.finishLiveWrite; dsimp only; split <;> simp
@[simp] theorem State.finishLiveWrite_regions (s : State) (w : LiveWrite) : (s.finishLiveWrite w).regions = s.regions := by unfold State.finishLiveWrite; dsimp only; split <;> simp
@[simp] theorem State.finishLiveWrite_merge (s : State) (w : LiveWrite) : (s.finishLiveWrite w).merge = s.merge := by unfold State.finishLiveWrite; dsimp only; split <;> simp
@[simp] theorem State.finishLiveWrite_scrub (s : State) (w : LiveWrite) : (s.finishLiveWrite w).scrub = s.scrub := by unfold State.finishLiveWrite; dsimp only; split <;> simp
@[simp] theorem State.finishLiveWrite_port (s : State) (w : LiveWrite) : (s.finishLiveWrite w).port = s.port := by unfold State.finishLiveWrite; dsimp only; split <;> simp
@[simp] theorem State.finishLiveWrite_link (s : State) (w : LiveWrite) : (s.finishLiveWrite w).link = s.link := by unfold State.finishLiveWrite; dsimp only; split <;> simp
@[simp] theorem State.finishLiveWrite_pins (s : State) (w : LiveWrite) : (s.finishLiveWrite w).pins = s.pins := by unfold State.finishLiveWrite; dsimp only; split <;> simp
@[simp] theorem State.finishLiveWrite_pending (s : State) (w : LiveWrite) : (s.finishLiveWrite w).pending = s.pending := by unfold State.finishLiveWrite; dsimp only; split <;> simp

@[simp] theorem State.presentRead_resetAsserted (s : State) (r : LiveRead) : (s.presentRead r).resetAsserted = s.resetAsserted := by unfold State.presentRead; dsimp only; (repeat' split) <;> simp
@[simp] theorem State.presentRead_mode (s : State) (r : LiveRead) : (s.presentRead r).mode = s.mode := by unfold State.presentRead; dsimp only; (repeat' split) <;> simp
@[simp] theorem State.presentRead_armOption (s : State) (r : LiveRead) : (s.presentRead r).armOption = s.armOption := by unfold State.presentRead; dsimp only; (repeat' split) <;> simp
@[simp] theorem State.presentRead_remembered (s : State) (r : LiveRead) : (s.presentRead r).remembered = s.remembered := by unfold State.presentRead; dsimp only; (repeat' split) <;> simp
@[simp] theorem State.presentRead_regions (s : State) (r : LiveRead) : (s.presentRead r).regions = s.regions := by unfold State.presentRead; dsimp only; (repeat' split) <;> simp
@[simp] theorem State.presentRead_groups (s : State) (r : LiveRead) : (s.presentRead r).groups = s.groups := by unfold State.presentRead; dsimp only; (repeat' split) <;> simp
@[simp] theorem State.presentRead_scrub (s : State) (r : LiveRead) : (s.presentRead r).scrub = s.scrub := by unfold State.presentRead; dsimp only; (repeat' split) <;> simp
@[simp] theorem State.presentRead_events (s : State) (r : LiveRead) : (s.presentRead r).events = s.events := by unfold State.presentRead; dsimp only; (repeat' split) <;> simp
@[simp] theorem State.presentRead_link (s : State) (r : LiveRead) : (s.presentRead r).link = s.link := by unfold State.presentRead; dsimp only; (repeat' split) <;> simp
@[simp] theorem State.presentRead_sent (s : State) (r : LiveRead) : (s.presentRead r).sent = s.sent := by unfold State.presentRead; dsimp only; (repeat' split) <;> simp
@[simp] theorem State.presentRead_pins (s : State) (r : LiveRead) : (s.presentRead r).pins = s.pins := by unfold State.presentRead; dsimp only; (repeat' split) <;> simp
@[simp] theorem State.presentRead_pending (s : State) (r : LiveRead) : (s.presentRead r).pending = s.pending := by unfold State.presentRead; dsimp only; (repeat' split) <;> simp

@[simp] theorem State.reportJobDone_resetAsserted (s : State) (ix : RegionIx) : (s.reportJobDone ix).resetAsserted = s.resetAsserted := by unfold State.reportJobDone; (repeat' split) <;> simp
@[simp] theorem State.reportJobDone_mode (s : State) (ix : RegionIx) : (s.reportJobDone ix).mode = s.mode := by unfold State.reportJobDone; (repeat' split) <;> simp
@[simp] theorem State.reportJobDone_armOption (s : State) (ix : RegionIx) : (s.reportJobDone ix).armOption = s.armOption := by unfold State.reportJobDone; (repeat' split) <;> simp
@[simp] theorem State.reportJobDone_remembered (s : State) (ix : RegionIx) : (s.reportJobDone ix).remembered = s.remembered := by unfold State.reportJobDone; (repeat' split) <;> simp
@[simp] theorem State.reportJobDone_regions (s : State) (ix : RegionIx) : (s.reportJobDone ix).regions = s.regions := by unfold State.reportJobDone; (repeat' split) <;> simp
@[simp] theorem State.reportJobDone_host (s : State) (ix : RegionIx) : (s.reportJobDone ix).host = s.host := by unfold State.reportJobDone; (repeat' split) <;> simp
@[simp] theorem State.reportJobDone_merge (s : State) (ix : RegionIx) : (s.reportJobDone ix).merge = s.merge := by unfold State.reportJobDone; (repeat' split) <;> simp
@[simp] theorem State.reportJobDone_scrub (s : State) (ix : RegionIx) : (s.reportJobDone ix).scrub = s.scrub := by unfold State.reportJobDone; (repeat' split) <;> simp
@[simp] theorem State.reportJobDone_port (s : State) (ix : RegionIx) : (s.reportJobDone ix).port = s.port := by unfold State.reportJobDone; (repeat' split) <;> simp
@[simp] theorem State.reportJobDone_link (s : State) (ix : RegionIx) : (s.reportJobDone ix).link = s.link := by unfold State.reportJobDone; (repeat' split) <;> simp
@[simp] theorem State.reportJobDone_sent (s : State) (ix : RegionIx) : (s.reportJobDone ix).sent = s.sent := by unfold State.reportJobDone; (repeat' split) <;> simp
@[simp] theorem State.reportJobDone_pins (s : State) (ix : RegionIx) : (s.reportJobDone ix).pins = s.pins := by unfold State.reportJobDone; (repeat' split) <;> simp
@[simp] theorem State.reportJobDone_pending (s : State) (ix : RegionIx) : (s.reportJobDone ix).pending = s.pending := by unfold State.reportJobDone; (repeat' split) <;> simp

@[simp] theorem State.reportFailedWords_resetAsserted (s : State) (j : ScrubJob) : (s.reportFailedWords j).resetAsserted = s.resetAsserted := by unfold State.reportFailedWords; split <;> rfl
@[simp] theorem State.reportFailedWords_mode (s : State) (j : ScrubJob) : (s.reportFailedWords j).mode = s.mode := by unfold State.reportFailedWords; split <;> rfl
@[simp] theorem State.reportFailedWords_armOption (s : State) (j : ScrubJob) : (s.reportFailedWords j).armOption = s.armOption := by unfold State.reportFailedWords; split <;> rfl
@[simp] theorem State.reportFailedWords_remembered (s : State) (j : ScrubJob) : (s.reportFailedWords j).remembered = s.remembered := by unfold State.reportFailedWords; split <;> rfl
@[simp] theorem State.reportFailedWords_regions (s : State) (j : ScrubJob) : (s.reportFailedWords j).regions = s.regions := by unfold State.reportFailedWords; split <;> rfl
@[simp] theorem State.reportFailedWords_host (s : State) (j : ScrubJob) : (s.reportFailedWords j).host = s.host := by unfold State.reportFailedWords; split <;> rfl
@[simp] theorem State.reportFailedWords_merge (s : State) (j : ScrubJob) : (s.reportFailedWords j).merge = s.merge := by unfold State.reportFailedWords; split <;> rfl
@[simp] theorem State.reportFailedWords_groups (s : State) (j : ScrubJob) : (s.reportFailedWords j).groups = s.groups := by unfold State.reportFailedWords; split <;> rfl
@[simp] theorem State.reportFailedWords_scrub (s : State) (j : ScrubJob) : (s.reportFailedWords j).scrub = s.scrub := by unfold State.reportFailedWords; split <;> rfl
@[simp] theorem State.reportFailedWords_port (s : State) (j : ScrubJob) : (s.reportFailedWords j).port = s.port := by unfold State.reportFailedWords; split <;> rfl
@[simp] theorem State.reportFailedWords_link (s : State) (j : ScrubJob) : (s.reportFailedWords j).link = s.link := by unfold State.reportFailedWords; split <;> rfl
@[simp] theorem State.reportFailedWords_sent (s : State) (j : ScrubJob) : (s.reportFailedWords j).sent = s.sent := by unfold State.reportFailedWords; split <;> rfl
@[simp] theorem State.reportFailedWords_pins (s : State) (j : ScrubJob) : (s.reportFailedWords j).pins = s.pins := by unfold State.reportFailedWords; split <;> rfl
@[simp] theorem State.reportFailedWords_pending (s : State) (j : ScrubJob) : (s.reportFailedWords j).pending = s.pending := by unfold State.reportFailedWords; split <;> rfl

@[simp] theorem State.judgeStarting_resetAsserted (s : State) : (s.judgeStarting).resetAsserted = s.resetAsserted := by unfold State.judgeStarting; split <;> rfl
@[simp] theorem State.judgeStarting_armOption (s : State) : (s.judgeStarting).armOption = s.armOption := by unfold State.judgeStarting; split <;> rfl
@[simp] theorem State.judgeStarting_remembered (s : State) : (s.judgeStarting).remembered = s.remembered := by unfold State.judgeStarting; split <;> rfl
@[simp] theorem State.judgeStarting_regions (s : State) : (s.judgeStarting).regions = s.regions := by unfold State.judgeStarting; split <;> rfl
@[simp] theorem State.judgeStarting_host (s : State) : (s.judgeStarting).host = s.host := by unfold State.judgeStarting; split <;> rfl
@[simp] theorem State.judgeStarting_merge (s : State) : (s.judgeStarting).merge = s.merge := by unfold State.judgeStarting; split <;> rfl
@[simp] theorem State.judgeStarting_scrub (s : State) : (s.judgeStarting).scrub = s.scrub := by unfold State.judgeStarting; split <;> rfl
@[simp] theorem State.judgeStarting_port (s : State) : (s.judgeStarting).port = s.port := by unfold State.judgeStarting; split <;> rfl
@[simp] theorem State.judgeStarting_link (s : State) : (s.judgeStarting).link = s.link := by unfold State.judgeStarting; split <;> rfl
@[simp] theorem State.judgeStarting_sent (s : State) : (s.judgeStarting).sent = s.sent := by unfold State.judgeStarting; split <;> rfl
@[simp] theorem State.judgeStarting_pins (s : State) : (s.judgeStarting).pins = s.pins := by unfold State.judgeStarting; split <;> rfl
@[simp] theorem State.judgeStarting_pending (s : State) : (s.judgeStarting).pending = s.pending := by unfold State.judgeStarting; split <;> rfl

@[simp] theorem State.completeJob_resetAsserted (s : State) (j : ScrubJob) (rest : List ScrubJob) : (s.completeJob j rest).resetAsserted = s.resetAsserted := by simp [State.completeJob]
@[simp] theorem State.completeJob_armOption (s : State) (j : ScrubJob) (rest : List ScrubJob) : (s.completeJob j rest).armOption = s.armOption := by simp [State.completeJob]
@[simp] theorem State.completeJob_remembered (s : State) (j : ScrubJob) (rest : List ScrubJob) : (s.completeJob j rest).remembered = s.remembered := by simp [State.completeJob]
@[simp] theorem State.completeJob_regions (s : State) (j : ScrubJob) (rest : List ScrubJob) : (s.completeJob j rest).regions = s.regions := by simp [State.completeJob]
@[simp] theorem State.completeJob_host (s : State) (j : ScrubJob) (rest : List ScrubJob) : (s.completeJob j rest).host = s.host := by simp [State.completeJob]
@[simp] theorem State.completeJob_merge (s : State) (j : ScrubJob) (rest : List ScrubJob) : (s.completeJob j rest).merge = s.merge := by simp [State.completeJob]
@[simp] theorem State.completeJob_port (s : State) (j : ScrubJob) (rest : List ScrubJob) : (s.completeJob j rest).port = s.port := by simp [State.completeJob]
@[simp] theorem State.completeJob_link (s : State) (j : ScrubJob) (rest : List ScrubJob) : (s.completeJob j rest).link = s.link := by simp [State.completeJob]
@[simp] theorem State.completeJob_sent (s : State) (j : ScrubJob) (rest : List ScrubJob) : (s.completeJob j rest).sent = s.sent := by simp [State.completeJob]
@[simp] theorem State.completeJob_pins (s : State) (j : ScrubJob) (rest : List ScrubJob) : (s.completeJob j rest).pins = s.pins := by simp [State.completeJob]
@[simp] theorem State.completeJob_pending (s : State) (j : ScrubJob) (rest : List ScrubJob) : (s.completeJob j rest).pending = s.pending := by simp [State.completeJob]

@[simp] theorem State.scrubDone_resetAsserted (s : State) (failed : Bool) : (s.scrubDone failed).resetAsserted = s.resetAsserted := by unfold State.scrubDone; dsimp only; (repeat' split) <;> simp
@[simp] theorem State.scrubDone_armOption (s : State) (failed : Bool) : (s.scrubDone failed).armOption = s.armOption := by unfold State.scrubDone; dsimp only; (repeat' split) <;> simp
@[simp] theorem State.scrubDone_remembered (s : State) (failed : Bool) : (s.scrubDone failed).remembered = s.remembered := by unfold State.scrubDone; dsimp only; (repeat' split) <;> simp
@[simp] theorem State.scrubDone_regions (s : State) (failed : Bool) : (s.scrubDone failed).regions = s.regions := by unfold State.scrubDone; dsimp only; (repeat' split) <;> simp
@[simp] theorem State.scrubDone_host (s : State) (failed : Bool) : (s.scrubDone failed).host = s.host := by unfold State.scrubDone; dsimp only; (repeat' split) <;> simp
@[simp] theorem State.scrubDone_merge (s : State) (failed : Bool) : (s.scrubDone failed).merge = s.merge := by unfold State.scrubDone; dsimp only; (repeat' split) <;> simp
@[simp] theorem State.scrubDone_port (s : State) (failed : Bool) : (s.scrubDone failed).port = s.port := by unfold State.scrubDone; dsimp only; (repeat' split) <;> simp
@[simp] theorem State.scrubDone_link (s : State) (failed : Bool) : (s.scrubDone failed).link = s.link := by unfold State.scrubDone; dsimp only; (repeat' split) <;> simp
@[simp] theorem State.scrubDone_sent (s : State) (failed : Bool) : (s.scrubDone failed).sent = s.sent := by unfold State.scrubDone; dsimp only; (repeat' split) <;> simp
@[simp] theorem State.scrubDone_pins (s : State) (failed : Bool) : (s.scrubDone failed).pins = s.pins := by unfold State.scrubDone; dsimp only; (repeat' split) <;> simp
@[simp] theorem State.scrubDone_pending (s : State) (failed : Bool) : (s.scrubDone failed).pending = s.pending := by unfold State.scrubDone; dsimp only; (repeat' split) <;> simp

@[simp] theorem State.faultEntry_resetAsserted (s : State) (stamp : Nat) (cause : Cause) (word : ReportedState) : (s.faultEntry stamp cause word).resetAsserted = s.resetAsserted := by unfold State.faultEntry; split <;> simp
@[simp] theorem State.faultEntry_mode (s : State) (stamp : Nat) (cause : Cause) (word : ReportedState) : (s.faultEntry stamp cause word).mode = s.mode := by unfold State.faultEntry; split <;> simp
@[simp] theorem State.faultEntry_armOption (s : State) (stamp : Nat) (cause : Cause) (word : ReportedState) : (s.faultEntry stamp cause word).armOption = s.armOption := by unfold State.faultEntry; split <;> simp
@[simp] theorem State.faultEntry_remembered (s : State) (stamp : Nat) (cause : Cause) (word : ReportedState) : (s.faultEntry stamp cause word).remembered = s.remembered := by unfold State.faultEntry; split <;> simp
@[simp] theorem State.faultEntry_regions (s : State) (stamp : Nat) (cause : Cause) (word : ReportedState) : (s.faultEntry stamp cause word).regions = s.regions := by unfold State.faultEntry; split <;> simp
@[simp] theorem State.faultEntry_host (s : State) (stamp : Nat) (cause : Cause) (word : ReportedState) : (s.faultEntry stamp cause word).host = s.host := by unfold State.faultEntry; split <;> simp
@[simp] theorem State.faultEntry_scrub (s : State) (stamp : Nat) (cause : Cause) (word : ReportedState) : (s.faultEntry stamp cause word).scrub = s.scrub := by unfold State.faultEntry; split <;> simp
@[simp] theorem State.faultEntry_link (s : State) (stamp : Nat) (cause : Cause) (word : ReportedState) : (s.faultEntry stamp cause word).link = s.link := by unfold State.faultEntry; split <;> simp
@[simp] theorem State.faultEntry_sent (s : State) (stamp : Nat) (cause : Cause) (word : ReportedState) : (s.faultEntry stamp cause word).sent = s.sent := by unfold State.faultEntry; split <;> simp
@[simp] theorem State.faultEntry_pins (s : State) (stamp : Nat) (cause : Cause) (word : ReportedState) : (s.faultEntry stamp cause word).pins = s.pins := by unfold State.faultEntry; split <;> simp
@[simp] theorem State.faultEntry_pending (s : State) (stamp : Nat) (cause : Cause) (word : ReportedState) : (s.faultEntry stamp cause word).pending = s.pending := by unfold State.faultEntry; split <;> simp

@[simp] theorem State.failOne_resetAsserted (s : State) (f : Failing) : (s.failOne f).resetAsserted = s.resetAsserted := by unfold State.failOne; (repeat' split) <;> simp
@[simp] theorem State.failOne_armOption (s : State) (f : Failing) : (s.failOne f).armOption = s.armOption := by unfold State.failOne; (repeat' split) <;> simp
@[simp] theorem State.failOne_remembered (s : State) (f : Failing) : (s.failOne f).remembered = s.remembered := by unfold State.failOne; (repeat' split) <;> simp
@[simp] theorem State.failOne_regions (s : State) (f : Failing) : (s.failOne f).regions = s.regions := by unfold State.failOne; (repeat' split) <;> simp
@[simp] theorem State.failOne_link (s : State) (f : Failing) : (s.failOne f).link = s.link := by unfold State.failOne; (repeat' split) <;> simp
@[simp] theorem State.failOne_pins (s : State) (f : Failing) : (s.failOne f).pins = s.pins := by unfold State.failOne; (repeat' split) <;> simp
@[simp] theorem State.failOne_pending (s : State) (f : Failing) : (s.failOne f).pending = s.pending := by unfold State.failOne; (repeat' split) <;> simp

/-! ### Events: a block changes its events by raising records only -/

/-- The events of the second state are those of the first with some records raised, in their order. -/
def Raises (s t : State) : Prop := ∃ rs : List Report, t.events = rs.foldl EventBlock.raise s.events

theorem Raises.refl (s : State) : Raises s s := ⟨[], rfl⟩

theorem Raises.of_eq {s t : State} (h : t.events = s.events) : Raises s t := ⟨[], h⟩

theorem Raises.trans {s t u : State} (hst : Raises s t) (htu : Raises t u) : Raises s u := by
  obtain ⟨rs, hr⟩ := hst
  obtain ⟨qs, hq⟩ := htu
  exact ⟨rs ++ qs, by rw [hq, hr, List.foldl_append]⟩

theorem Raises.one {s t : State} (r : Report) (h : t.events = s.events.raise r) : Raises s t := ⟨[r], h⟩

/-- Raising a record stores it when fewer than 32 are held, and else sets the loss mark only (R145). -/
theorem EventBlock.raise_cases (b : EventBlock) (r : Report) :
    (b.queue.length < Config.eventDepth ∧
        (b.raise r).queue = b.queue ++ [{ serial := b.serial, lossBefore := b.loss, report := r }] ∧
        (b.raise r).serial = b.serial + 1 ∧ (b.raise r).loss = false ∧ (b.raise r).mask = b.mask ∧
        (b.raise r).attn = (b.raise r).attention) ∨
      (Config.eventDepth ≤ b.queue.length ∧ b.raise r = { b with loss := true }) := by
  unfold EventBlock.raise
  split
  · exact .inl ⟨‹_›, rfl, rfl, rfl, rfl, rfl⟩
  · exact .inr ⟨by omega, rfl⟩

@[simp] theorem EventBlock.raise_mask (b : EventBlock) (r : Report) : (b.raise r).mask = b.mask := by
  unfold EventBlock.raise; split <;> rfl

/-- ATTN agrees with its condition after a record is raised if it did before (R153). -/
theorem EventBlock.raise_attn {b : EventBlock} (h : b.attn = b.attention) (r : Report) : (b.raise r).attn = (b.raise r).attention := by
  unfold EventBlock.raise
  split
  · rfl
  · exact h

theorem EventBlock.raise_length_le {b : EventBlock} (h : b.queue.length ≤ Config.eventDepth) (r : Report) :
    (b.raise r).queue.length ≤ Config.eventDepth := by
  unfold EventBlock.raise
  split
  · simp [EventBlock.sync]; omega
  · exact h

theorem State.takeFlip_raises (s : State) (g : GroupIx) : Raises s (s.takeFlip g) := by
  unfold State.takeFlip; dsimp only; split
  · exact .one _ rfl
  · exact .of_eq rfl

theorem State.cutPoint_raises (s : State) (g : GroupIx) : Raises s (s.cutPoint g) := by
  unfold State.cutPoint; dsimp only; split
  · exact s.takeFlip_raises g
  · exact .refl s

theorem State.reportRemoval_raises (s : State) (group : Option GroupIx) (bank : Bank) : Raises s (s.reportRemoval group bank) := by
  unfold State.reportRemoval; dsimp only; repeat' split
  · exact .refl s
  · exact .one _ rfl
  · exact .of_eq rfl
  · exact .refl s

theorem State.enterReady_raises (s : State) (g : GroupIx) : Raises s (s.enterReady g) :=
  (Raises.one _ rfl).trans (State.cutPoint_raises _ g)

theorem State.requestFlip_raises (s : State) (g : GroupIx) (source : Cause) : Raises s (s.requestFlip g source).1 := by
  unfold State.requestFlip; dsimp only; repeat' split
  · exact .refl s
  · exact .of_eq rfl
  · exact s.takeFlip_raises g
  · exact .of_eq rfl
  · exact .one _ rfl
  · exact .one _ rfl
  · exact .refl s

theorem State.judgeStopping_raises (s : State) : Raises s s.judgeStopping := by
  unfold State.judgeStopping; split
  · exact .one _ rfl
  · exact .refl s

theorem State.withhold_raises (s : State) (w : PlainWrite) (index : Nat) : Raises s (s.withhold w index) := by
  unfold State.withhold; dsimp only; split
  · exact .one _ rfl
  · exact .one _ (by simp only [State.storeRecord_events]; rfl)

theorem State.offerPlain_raises (s : State) (w : PlainWrite) : Raises s (s.offerPlain w) := by
  unfold State.offerPlain; repeat' split
  · exact .of_eq rfl
  · exact s.withhold_raises w _
  · exact .of_eq rfl

theorem State.wordPassed_raises (s : State) (x : PassWord) : Raises s (s.wordPassed x) := by
  unfold State.wordPassed; repeat' split
  · exact s.offerPlain_raises _
  all_goals exact .of_eq rfl

theorem State.recheckOffered_raises (s : State) : Raises s s.recheckOffered := by
  unfold State.recheckOffered; repeat' split
  · exact (Raises.of_eq (t := { s with port := { s.port with offered := _ } }) rfl).trans (State.withhold_raises _ _ _)
  all_goals exact .of_eq rfl

theorem State.removeEntry_raises (s : State) (e : MergeEntry) (fault : Option (Cause × ReportedState)) :
    Raises s (s.removeEntry e fault) := by
  unfold State.removeEntry; dsimp only
  cases fault with
  | none => exact (Raises.of_eq rfl).trans (State.reportRemoval_raises _ _ _)
  | some f => exact (Raises.one _ rfl).trans (State.reportRemoval_raises _ _ _)

theorem State.finishLiveWrite_raises (s : State) (w : LiveWrite) : Raises s (s.finishLiveWrite w) := by
  unfold State.finishLiveWrite; dsimp only; split
  · exact .of_eq rfl
  · exact (Raises.of_eq rfl).trans (State.cutPoint_raises _ _)

/-- A contribution that is taken changes the merge engine only: it joins the youngest entry for its word, or is appended (R42). -/
theorem State.contribute_cases {s t : State} {ix : RegionIx} {offset : Addr} {word : WriteWord}
    (h : s.contribute ix offset word = some t) :
    (∃ y, youngest s.merge.queue (s.physical ix offset) = some y ∧ y.joinable = true ∧
        t = s.setQueue (updateEntry s.merge.queue y.stamp fun e => e.join (contributionLanes s.regions[ix].width word))) ∨
      ((∀ y, youngest s.merge.queue (s.physical ix offset) = some y → y.joinable = false) ∧
        s.merge.queue.length < Config.queueDepth ∧
        t = { s with merge := { s.merge with
          queue := s.merge.queue ++ [s.newEntry ix offset word], nextStamp := s.merge.nextStamp + 1 } }) := by
  unfold State.contribute at h
  dsimp only at h
  split at h
  · rename_i hy
    split at h
    · exact .inr ⟨by simp [hy], ‹_›, (Option.some.inj h).symm⟩
    · cases h
  · rename_i y hy
    split at h
    · exact .inl ⟨y, hy, ‹_›, (Option.some.inj h).symm⟩
    · rename_i hj
      split at h
      · refine .inr ⟨?_, ‹_›, (Option.some.inj h).symm⟩
        intro z hz
        rw [hy] at hz
        cases hz
        simpa using hj
      · cases h

/-- A contribution is not taken exactly when it would be appended to a full queue (R44). -/
theorem State.contribute_none_iff (s : State) (ix : RegionIx) (offset : Addr) (word : WriteWord) :
    s.contribute ix offset word = none ↔
      (∀ y, youngest s.merge.queue (s.physical ix offset) = some y → y.joinable = false) ∧
        Config.queueDepth ≤ s.merge.queue.length := by
  unfold State.contribute
  dsimp only
  split
  · rename_i hy
    split <;> simp [hy] <;> omega
  · rename_i y hy
    split
    · rename_i hj
      simp [hy, hj]
    · rename_i hj
      split <;> simp [hy, hj] <;> omega

/-- Presenting the next word of a LIVE write does one of three things: it stalls, it goes on to the next word, or it finishes the
write (R44, R120). -/
theorem State.presentWord_cases (s : State) (w : LiveWrite) {word : WriteWord} (hw : w.words[w.position]? = some word) :
    (s.contribute w.region (wordAddr w.offset w.position) word = none ∧ s.presentWord w = s.setIntake (.liveWrite w true)) ∨
      (∃ t i, s.contribute w.region (wordAddr w.offset w.position) word = some t ∧ nextMasked w.words (w.position + 1) = some i ∧
        s.presentWord w = t.setIntake (.liveWrite { w with position := i } false)) ∨
      (∃ t, s.contribute w.region (wordAddr w.offset w.position) word = some t ∧ nextMasked w.words (w.position + 1) = none ∧
        s.presentWord w = t.finishLiveWrite w) := by
  unfold State.presentWord
  simp only [hw]
  split
  · exact .inl ⟨‹_›, rfl⟩
  · rename_i t ht
    split
    · rename_i i hi
      exact .inr (.inl ⟨t, i, ht, hi, rfl⟩)
    · rename_i hi
      exact .inr (.inr ⟨t, ht, hi, rfl⟩)

theorem State.contribute_events {s t : State} {ix : RegionIx} {offset : Addr} {word : WriteWord}
    (h : s.contribute ix offset word = some t) : t.events = s.events := by
  obtain ⟨y, -, -, rfl⟩ | ⟨-, -, rfl⟩ := State.contribute_cases h <;> rfl

theorem State.presentWord_raises (s : State) (w : LiveWrite) : Raises s (s.presentWord w) := by
  cases hw : w.words[w.position]? with
  | none => exact .of_eq (by simp [State.presentWord, hw])
  | some word =>
    obtain ⟨-, h⟩ | ⟨t, i, ht, -, h⟩ | ⟨t, ht, -, h⟩ := s.presentWord_cases w hw
    · rw [h]; exact .of_eq rfl
    · rw [h]; exact .of_eq (State.contribute_events (t := t) ht)
    · rw [h]; exact (Raises.of_eq (State.contribute_events ht)).trans (t.finishLiveWrite_raises w)

theorem State.reportJobDone_raises (s : State) (ix : RegionIx) : Raises s (s.reportJobDone ix) := by
  unfold State.reportJobDone; repeat' split
  · exact .refl s
  · exact s.enterReady_raises _
  · exact .refl s

theorem State.reportFailedWords_raises (s : State) (j : ScrubJob) : Raises s (s.reportFailedWords j) := by
  unfold State.reportFailedWords; split
  · exact .refl s
  · exact .one _ rfl

theorem State.judgeStarting_raises (s : State) : Raises s s.judgeStarting := by
  unfold State.judgeStarting; split
  · exact .one _ rfl
  · exact .refl s

theorem State.completeJob_raises (s : State) (j : ScrubJob) (rest : List ScrubJob) : Raises s (s.completeJob j rest) :=
  ((s.reportFailedWords_raises j).trans (.of_eq (t := (s.reportFailedWords j).dropJob rest) rfl)).trans
    ((State.reportJobDone_raises _ j.region).trans (State.judgeStarting_raises _))

theorem State.scrubDone_raises (s : State) (failed : Bool) : Raises s (s.scrubDone failed) := by
  unfold State.scrubDone; dsimp only; repeat' split
  · exact .refl s
  · exact s.completeJob_raises _ _
  · exact .of_eq rfl

theorem State.faultEntry_raises (s : State) (stamp : Nat) (cause : Cause) (word : ReportedState) :
    Raises s (s.faultEntry stamp cause word) := by
  unfold State.faultEntry; split
  · exact .refl s
  · exact s.removeEntry_raises _ _

theorem State.failOne_raises (s : State) (f : Failing) : Raises s (s.failOne f) := by
  unfold State.failOne; repeat' split
  · exact s.faultEntry_raises _ _ _
  · exact s.faultEntry_raises _ _ _
  · exact .of_eq (by simp)
  · exact .of_eq (by simp)
  · exact s.scrubDone_raises _
  · exact .refl s
  · exact s.faultEntry_raises _ _ _
  · exact (Raises.of_eq (by simp)).trans (State.wordPassed_raises _ _)
  · exact s.faultEntry_raises _ _ _

/-! ### The cascade: what each failure keeps, the whole keeps -/

/-- A relation that every failure satisfies, that clearing the offers satisfies, and that composes, holds across a cascade. -/
theorem cascade_rel {R : State → State → Prop} (refl : ∀ s, R s s) (trans : ∀ {s t u}, R s t → R t u → R s u)
    (one : ∀ s f, R s (s.failOne f)) (clear : ∀ s : State, R s { s with port := { s.port with offered := [] } }) :
    ∀ (fuel : Nat) (fs : List Failing) (s : State), R s (cascade fuel fs s)
  | 0, _, s => refl s
  | _ + 1, [], s => refl s
  | fuel + 1, f :: _, s =>
    trans (trans (one s f) (clear (s.failOne f))) (cascade_rel refl trans one clear fuel _ _)

/-- A property that every failure keeps and that clearing the offers keeps is kept by a cascade. -/
theorem cascade_keeps {P : State → Prop} (one : ∀ s f, P s → P (s.failOne f))
    (clear : ∀ s : State, P s → P { s with port := { s.port with offered := [] } }) (fuel : Nat) (fs : List Failing) (s : State)
    (h : P s) : P (cascade fuel fs s) :=
  cascade_rel (R := fun s t => P s → P t) (fun _ h => h) (fun hst htu h => htu (hst h)) (fun s f => one s f) (fun s => clear s)
    fuel fs s h

/-- A cascade that starts with no word offered ends with none. -/
theorem cascade_offered : ∀ (fuel : Nat) (fs : List Failing) (s : State), s.port.offered = [] → (cascade fuel fs s).port.offered = []
  | 0, _, _, h => h
  | _ + 1, [], _, h => h
  | fuel + 1, _ :: _, _, _ => cascade_offered fuel _ _ rfl

theorem State.settle_rel {R : State → State → Prop} (refl : ∀ s, R s s) (trans : ∀ {s t u}, R s t → R t u → R s u)
    (one : ∀ s f, R s (s.failOne f)) (clear : ∀ s : State, R s { s with port := { s.port with offered := [] } }) (s : State) :
    R s s.settle := by
  unfold State.settle
  split
  · exact trans (clear s) (cascade_rel refl trans one clear _ _ _)
  · exact refl s

theorem State.settle_keeps {P : State → Prop} (one : ∀ s f, P s → P (s.failOne f))
    (clear : ∀ s : State, P s → P { s with port := { s.port with offered := [] } }) (s : State) (h : P s) : P s.settle :=
  State.settle_rel (R := fun s t => P s → P t) (fun _ h => h) (fun hst htu h => htu (hst h)) (fun s f => one s f) (fun s => clear s) s h

theorem State.settle_raises (s : State) : Raises s s.settle :=
  s.settle_rel Raises.refl Raises.trans State.failOne_raises fun _ => .of_eq rfl

theorem State.settle_of_not_failed {s : State} (h : s.port.state ≠ .failed) : s.settle = s := by
  unfold State.settle; simp [h]

@[simp] theorem State.settle_pending (s : State) : s.settle.pending = s.pending :=
  s.settle_rel (R := fun s t => t.pending = s.pending) (fun _ => rfl) (fun hst htu => htu.trans hst) (fun s f => by simp) fun _ => rfl

@[simp] theorem State.settle_regions (s : State) : s.settle.regions = s.regions :=
  s.settle_rel (R := fun s t => t.regions = s.regions) (fun _ => rfl) (fun hst htu => htu.trans hst) (fun s f => by simp) fun _ => rfl

@[simp] theorem State.settle_remembered (s : State) : s.settle.remembered = s.remembered :=
  s.settle_rel (R := fun s t => t.remembered = s.remembered) (fun _ => rfl) (fun hst htu => htu.trans hst) (fun s f => by simp)
    fun _ => rfl

@[simp] theorem State.settle_link (s : State) : s.settle.link = s.link :=
  s.settle_rel (R := fun s t => t.link = s.link) (fun _ => rfl) (fun hst htu => htu.trans hst) (fun s f => by simp) fun _ => rfl

@[simp] theorem State.settle_pins (s : State) : s.settle.pins = s.pins :=
  s.settle_rel (R := fun s t => t.pins = s.pins) (fun _ => rfl) (fun hst htu => htu.trans hst) (fun s f => by simp) fun _ => rfl

@[simp] theorem State.settle_resetAsserted (s : State) : s.settle.resetAsserted = s.resetAsserted :=
  s.settle_rel (R := fun s t => t.resetAsserted = s.resetAsserted) (fun _ => rfl) (fun hst htu => htu.trans hst) (fun s f => by simp) fun _ => rfl

@[simp] theorem State.settle_armOption (s : State) : s.settle.armOption = s.armOption :=
  s.settle_rel (R := fun s t => t.armOption = s.armOption) (fun _ => rfl) (fun hst htu => htu.trans hst) (fun s f => by simp)
    fun _ => rfl

/-- The entry into FAILED, as its four parts in order (R136). -/
theorem State.enterFailed_rel {R : State → State → Prop} (refl : ∀ s, R s s) (trans : ∀ {s t u}, R s t → R t u → R s u)
    (raise : ∀ s r, R s (State.raise s r)) (port : ∀ (s : State) (p : MemoryPort), R s { s with port := p })
    (pause : ∀ s, R s (State.pauseScrub s)) (one : ∀ s f, R s (s.failOne f)) (s : State) (timedOut : Option Outstanding) :
    R s (s.enterFailed timedOut) := by
  unfold State.enterFailed
  dsimp only
  exact trans (trans (trans (trans (trans (raise s _) (port _ _))
    (cascade_rel refl trans one (fun s => port s _) _ _ _)) (pause _)) (port _ _))
    (State.settle_rel refl trans one (fun s => port s _) _)

theorem State.enterFailed_raises (s : State) (timedOut : Option Outstanding) : Raises s (s.enterFailed timedOut) :=
  s.enterFailed_rel Raises.refl Raises.trans (fun _ r => .one r rfl) (fun _ _ => .of_eq rfl) (fun _ => .of_eq rfl)
    State.failOne_raises timedOut

@[simp] theorem State.enterFailed_pending (s : State) (timedOut : Option Outstanding) :
    (s.enterFailed timedOut).pending = s.pending :=
  s.enterFailed_rel (R := fun s t => t.pending = s.pending) (fun _ => rfl) (fun hst htu => htu.trans hst) (fun _ _ => rfl)
    (fun _ _ => rfl) (fun _ => rfl) (fun s f => by simp) timedOut

@[simp] theorem State.enterFailed_pins (s : State) (timedOut : Option Outstanding) :
    (s.enterFailed timedOut).pins = s.pins :=
  s.enterFailed_rel (R := fun s t => t.pins = s.pins) (fun _ => rfl) (fun hst htu => htu.trans hst) (fun _ _ => rfl)
    (fun _ _ => rfl) (fun _ => rfl) (fun s f => by simp) timedOut

@[simp] theorem State.enterFailed_resetAsserted (s : State) (timedOut : Option Outstanding) :
    (s.enterFailed timedOut).resetAsserted = s.resetAsserted :=
  s.enterFailed_rel (R := fun s t => t.resetAsserted = s.resetAsserted) (fun _ => rfl) (fun hst htu => htu.trans hst) (fun _ _ => rfl)
    (fun _ _ => rfl) (fun _ => rfl) (fun s f => by simp) timedOut

@[simp] theorem State.enterFailed_regions (s : State) (timedOut : Option Outstanding) :
    (s.enterFailed timedOut).regions = s.regions :=
  s.enterFailed_rel (R := fun s t => t.regions = s.regions) (fun _ => rfl) (fun hst htu => htu.trans hst) (fun _ _ => rfl)
    (fun _ _ => rfl) (fun _ => rfl) (fun s f => by simp) timedOut

@[simp] theorem State.enterFailed_link (s : State) (timedOut : Option Outstanding) : (s.enterFailed timedOut).link = s.link :=
  s.enterFailed_rel (R := fun s t => t.link = s.link) (fun _ => rfl) (fun hst htu => htu.trans hst) (fun _ _ => rfl)
    (fun _ _ => rfl) (fun _ => rfl) (fun s f => by simp) timedOut

/-! ### What the port-facing operations keep -/

@[simp] theorem State.failOne_port_state (s : State) (f : Failing) : (s.failOne f).port.state = s.port.state := by
  have hpass : ∀ (u : State) (x : PassWord), (u.wordPassed x).port.state = u.port.state := by
    intro u x
    unfold State.wordPassed; repeat' split
    · unfold State.offerPlain; repeat' split
      · rfl
      · simp
      · rfl
    all_goals rfl
  have hentry : ∀ (u : State) (k : Nat) (c : Cause) (w : ReportedState), (u.faultEntry k c w).port.state = u.port.state := by
    intro u k c w
    unfold State.faultEntry; split
    · rfl
    · simp [State.removeEntry]
  unfold State.failOne; (repeat' split) <;> simp [hpass, hentry]

theorem cascade_port_state (fuel : Nat) (fs : List Failing) (s : State) : (cascade fuel fs s).port.state = s.port.state :=
  cascade_rel (R := fun s t => t.port.state = s.port.state) (fun _ => rfl) (fun hst htu => htu.trans hst) (fun s f => by simp)
    (fun _ => rfl) fuel fs s

/-- The entry into FAILED leaves the port FAILED (R136). -/
theorem State.enterFailed_port_state (s : State) (timedOut : Option Outstanding) :
    (s.enterFailed timedOut).port.state = .failed := by
  have hsettle : ∀ u : State, u.settle.port.state = u.port.state := fun u =>
    u.settle_rel (R := fun s t => t.port.state = s.port.state) (fun _ => rfl) (fun hst htu => htu.trans hst) (fun s f => by simp)
      fun _ => rfl
  unfold State.enterFailed
  dsimp only
  rw [hsettle]
  simp [State.failAll, cascade_port_state]

/-- A FAILED port that has settled has no pass-through word standing offered (R137). -/
theorem State.settle_offered {s : State} (h : s.port.state = .failed) : s.settle.port.offered = [] := by
  unfold State.settle
  simp only [h, if_true]
  exact cascade_offered _ _ _ rfl
end Sys2Proof.Machine
end

