-- ==== Sys2Proof/Laws/Terms.lean ====
section
/-! SUPPORT. The model's operations in the terms that the statements use: one lemma per operation, so that a proof cites it and
never unfolds the operation. -/

namespace Sys2Proof.Machine

open Sys2Proof.Safety

/-! ### Bytes and the management link -/

/-- Two bytes, the high one first (R179). -/
theorem natBytes_half (e : Half) : natBytes 2 e.toNat = [e.extractLsb' 8 8, e.extractLsb' 0 8] := by
  have h1 : BitVec.ofNat 8 (e.toNat / 256 ^ 1) = e.extractLsb' 8 8 := by
    apply BitVec.eq_of_toNat_eq; simp [BitVec.extractLsb', Nat.shiftRight_eq_div_pow]
  have h0 : BitVec.ofNat 8 (e.toNat / 256 ^ 0) = e.extractLsb' 0 8 := by
    apply BitVec.eq_of_toNat_eq; simp [BitVec.extractLsb', Nat.shiftRight_eq_div_pow]
  simp only [natBytes, h1, h0]

/-- A response to a command is the link of the statements (R174). -/
theorem State.respond_frameOf (s : State) (c : Instr) (r : Reply) :
    s.respond (frameOf c) r = { s with link := linkAfter c r.status.code r.data } := rfl

/-- The link takes a frame: the conditions of the statements (R170, R171, R175). -/
theorem Link.takes_iff (l : Link) (frame : List Byte) : l.takes frame = true ↔ l.selected = false ∨ l.reception = .skipping ∨
      (l.reception = .taking ∧ frameComplete l.receiver = false ∧ (∃ rest, frame = l.receiver ++ rest) ∧
        l.bits.length ≤ 8 ∧ ∀ (i : Nat) (b : Bool), l.bits[i]? = some b →
          b = (frame.getD l.receiver.length 0).getLsbD (7 - i)) := by
  have hb : ∀ (bits : List Bool) (x : Byte), bits.isPrefixOf (bitsOf x) = true ↔ bits.length ≤ 8 ∧
      ∀ (i : Nat) (b : Bool), bits[i]? = some b → b = x.getLsbD (7 - i) := by
    intro bits x
    rw [List.isPrefixOf_iff_prefix, List.prefix_iff_getElem?]
    have hx : ∀ i, i < 8 → (bitsOf x)[i]? = some (x.getLsbD (7 - i)) := by
      intro i hi
      interval_cases i <;> rfl
    constructor
    · intro h
      have hl : bits.length ≤ 8 := by
        by_contra hc
        have := h 8 (by omega)
        simp [bitsOf] at this
      refine ⟨hl, fun i b hi => ?_⟩
      have hlt := (List.getElem?_eq_some_iff.1 hi).1
      have := h i hlt
      rw [hx i (by omega)] at this
      rw [List.getElem?_eq_getElem hlt] at hi
      simp_all
    · rintro ⟨hl, h⟩ i hi
      rw [hx i (by omega), ← h i bits[i] (List.getElem?_eq_getElem hi)]
  unfold Link.takes
  rw [Bool.or_eq_true, Bool.not_eq_true']
  cases l.reception
  · simp only [Bool.and_eq_true, hb, List.isPrefixOf_iff_prefix, Bool.not_eq_true', and_assoc]
    simp only [List.IsPrefix, eq_comm, reduceCtorEq, false_or, true_and]
  · simp
  · simp

/-- A request that loses its job is that of the statements (R107; log 18). -/
theorem Outstanding.orphan_eq (o : Outstanding) : o.orphan = { o with owner := withoutJob o.owner } := by
  obtain ⟨owner, _, _⟩ := o
  cases owner <;> rfl

theorem groupOf_eq_some {code : Byte} {g : GroupIx} (h : code.toNat = g.val) : groupOf code = some g := by
  unfold groupOf
  rw [dif_pos (by omega)]
  exact congrArg some (Fin.ext h)

theorem groupOf_eq_none {code : Byte} (h : 3 < code.toNat) : groupOf code = none := by
  unfold groupOf
  rw [dif_neg (by omega)]

theorem groupOf_ofNat (g : GroupIx) : groupOf (BitVec.ofNat 8 g.val) = some g := by
  apply groupOf_eq_some
  have := g.isLt
  simp only [BitVec.toNat_ofNat]
  omega

theorem regionOf_eq_some {code : Byte} {ix : RegionIx} (h : code.toNat = ix.val) : regionOf code = some ix := by
  unfold regionOf
  rw [dif_pos (by omega)]
  exact congrArg some (Fin.ext h)

theorem regionOf_eq_none {code : Byte} (h : 15 < code.toNat) : regionOf code = none := by
  unfold regionOf
  rw [dif_neg (by omega)]

/-! ### Flips -/

theorem Bank.other_other (x : Bank) : x.other.other = x := by cases x <;> rfl

theorem State.setGroup_self (s : State) (g : GroupIx) (r : Group) (h : s.groups[g] = r) : s.setGroup g r = s := by
  subst h
  simp [State.setGroup]

/-- The model's test of a part-way intake is the term of the statements (R75). -/
theorem State.partWay_iff (s : State) (g : GroupIx) : s.partWay g = true ↔ PartWay s g := by
  unfold State.partWay PartWay
  cases s.host.intake <;> simp

/-- The entries a flip leaves to drain (R76). -/
theorem entriesTargeting_active (s : State) (g : GroupIx) :
    entriesTargeting s.merge.queue g s.groups[g].active = drainOnFlip s g := by
  unfold entriesTargeting drainOnFlip
  rw [List.countP_eq_length_filter]
  congr 2
  funext e
  simp [MergeEntry.targets, beq_eq_decide]

/-- Everything that taking a flip does (R76, R79). -/
theorem State.takeFlip_eq (s : State) (g : GroupIx) : s.takeFlip g = { s with
    groups := s.groups.set g (flipped s g), events := raised s.events (if drainOnFlip s g = 0 then [doneAtFlip s g] else []) } := by
  unfold State.takeFlip
  simp only [entriesTargeting_active]
  split
  · rename_i h
    simp [State.enterHeld, State.setGroup, State.raise, h, raised, doneAtFlip, flipped, flipDoneReport, Bank.other_other]
  · rename_i h
    simp [State.setGroup, h, raised, flipped]

/-- A request at a cut point takes the flip (R71). -/
theorem State.requestFlip_taken {s : State} {g : GroupIx} (h : AtCutPoint s g) (source : Cause) :
    s.requestFlip g source = (s.takeFlip g, .taken) := by
  obtain ⟨hr, hp, hw⟩ := h
  rw [← State.partWay_iff] at hw
  simp only [State.requestFlip, hr, hp, hw]
  rfl

/-- A request that waits leaves the flip pending (R71, R73). -/
theorem State.requestFlip_waits {s : State} {g : GroupIx} (h : WaitsForFlip s g) (source : Cause) :
    s.requestFlip g source = (s.setGroup g { s.groups[g] with flipPending := true }, .pending) := by
  have hself : s.groups[g].flipPending = true → s = s.setGroup g { s.groups[g] with flipPending := true } := fun hp =>
    (s.setGroup_self g _ (by cases hg : s.groups[g]; rw [hg] at hp; cases hp; rfl)).symm
  obtain ⟨hr, hp | hp⟩ | hc := h
  · refine Eq.trans ?_ (congrArg (·, FlipOutcome.pending) (hself hp))
    simp only [State.requestFlip, hr, hp, if_true]
  · rw [← State.partWay_iff] at hp
    by_cases hf : s.groups[g].flipPending = true
    · refine Eq.trans ?_ (congrArg (·, FlipOutcome.pending) (hself hf))
      simp only [State.requestFlip, hr, hf, if_true]
    · simp only [State.requestFlip, hr, hp, hf, if_true]
      rfl
  · simp only [State.requestFlip, hc]

/-- A request to a DRAINING or HELD group is missed (R74). -/
theorem State.requestFlip_missed {s : State} {g : GroupIx} (h : s.groups[g].state = .draining ∨ s.groups[g].state = .held)
    (source : Cause) :
    s.requestFlip g source = (s.raise (flipMissedReport g s.groups[g].state source), .refused s.groups[g].state) := by
  rcases h with h | h <;> simp only [State.requestFlip, h]

/-- The entries that a flip left behind (R79). -/
theorem entriesTargeting_other (s : State) (g : GroupIx) :
    entriesTargeting s.merge.queue g s.groups[g].active.other = leftBehind s g := by
  unfold entriesTargeting leftBehind
  rw [List.countP_eq_length_filter]
  congr 2
  funext e
  unfold MergeEntry.targets
  cases e.bank <;> cases s.groups[g].active <;> simp [Bank.other, beq_eq_decide]

/-! ### The end of STOPPING -/

theorem Intake.holdsLive_iff (i : Intake) : i.holdsLive = true ↔ HoldsLive i := by
  unfold Intake.holdsLive HoldsLive
  cases i <;> simp

/-- The model's test of the end of STOPPING is the term of the statements (R166). -/
theorem State.rundownDone_iff (s : State) : s.rundownDone = true ↔ RunDown s := by
  unfold State.rundownDone RunDown
  rw [← Intake.holdsLive_iff]
  simp [and_assoc]

/-- The end of STOPPING is judged: nothing happens, or STOPPING ends (R166). -/
theorem State.judgeStopping_eq (s : State) : (¬(s.mode = .stopping ∧ RunDown s) → s.judgeStopping = s) ∧
    (s.mode = .stopping → RunDown s → s.judgeStopping = s.endStopping) := by
  unfold State.judgeStopping
  rw [← State.rundownDone_iff]
  constructor
  · intro h; rw [if_neg (by simpa using h)]
  · intro h1 h2; rw [if_pos (by simp [h1, h2])]

/-! ### Events -/

/-- The condition of ATTN (R153). -/
theorem EventBlock.attention_iff (b : EventBlock) :
    b.attention = true ↔ ∃ e ∈ b.queue, b.mask.getLsbD e.report.kind.code = false := by
  simp [EventBlock.attention]

/-! ### Transaction records -/

theorem newRecord_eq (tag : Tag) (kind : AccessKind) (cls : TxClass) (length awaited : Nat) :
    newRecord tag kind cls length awaited = openedRecord tag kind cls length awaited := rfl

theorem readWords_eq (tag : Tag) (first : Addr) (length : Nat) :
    readWords tag first length = (List.range length).map (readWord tag first) := rfl

theorem State.record?_isSome_iff (s : State) (tag : Tag) : (s.record? tag).isSome = true ↔ ¬TagFree s tag := by
  unfold State.record? TagFree
  rw [List.find?_isSome]
  simp

theorem State.record?_eq_none_iff (s : State) (tag : Tag) : s.record? tag = none ↔ TagFree s tag := by
  unfold State.record? TagFree
  rw [List.find?_eq_none]
  simp

/-- The record that is found has the tag and is one of the records. -/
theorem State.record?_some {s : State} {tag : Tag} {r : TxRecord} (h : s.record? tag = some r) : r.tag = tag ∧ r ∈ s.host.records := by
  have h1 := List.find?_some h
  exact ⟨by simpa using h1, List.mem_of_find?_eq_some h⟩

/-- The record that is found is the record of the statements (R114). -/
theorem State.record?_eq_some_iff (s : State) (tag : Tag) (r : TxRecord) : s.record? tag = some r ↔ HasRecord s tag r := by
  unfold State.record? HasRecord
  rw [List.find?_eq_some_iff_append]
  constructor
  · rintro ⟨h, as, bs, hq, hn⟩; exact ⟨as, bs, hq, by simpa using h, by simpa using hn⟩
  · rintro ⟨as, bs, hq, h, hn⟩; exact ⟨by simpa using h, as, bs, hq, by simpa using hn⟩

theorem dropRecord_eq (records : List TxRecord) (tag : Tag) : dropRecord records tag = records.filter fun r => r.tag ≠ tag := by
  unfold dropRecord
  congr 1
  funext x
  simp [beq_eq_decide]

/-- Opening a record whose tag is free and dropping it again leaves the records. -/
theorem dropRecord_opened {records : List TxRecord} {tag : Tag} (h : ∀ r ∈ records, r.tag ≠ tag) {r : TxRecord} (hr : r.tag = tag) :
    dropRecord (records ++ [r]) tag = records := by
  rw [dropRecord_eq, List.filter_append]
  have : records.filter (fun r => decide (r.tag ≠ tag)) = records := by
    rw [List.filter_eq_self]
    exact fun x hx => decide_eq_true (h x hx)
  rw [this]
  simp [hr]

theorem putRecord_eq (records : List TxRecord) (r : TxRecord) :
    putRecord records r = records.map fun x => if x.tag = r.tag then r else x := by
  unfold putRecord
  simp [beq_iff_eq]

/-! ### Words with a mask (R22, R119) -/

/-- The first word, from `start` on, that is not skipped. -/
theorem nextMasked_eq_some {words : List WriteWord} {start i : Nat} {word : WriteWord} (hs : start ≤ i) (hw : words[i]? = some word)
    (hm : word.mask ≠ 0) (before : ∀ j, start ≤ j → j < i → ∀ x ∈ words[j]?, x.mask = 0) : nextMasked words start = some i := by
  have hi : i < words.length := (List.getElem?_eq_some_iff.1 hw).1
  unfold nextMasked
  have hsplit : (List.range words.length).drop start = (List.range' start (i - start)) ++ i :: List.range' (i + 1) (words.length - i - 1) := by
    rw [List.range_eq_range', List.drop_range']
    have : words.length - start = (i - start) + (1 + (words.length - i - 1)) := by omega
    rw [this, ← List.range'_append_1, ← List.range'_append_1]
    simp
    omega
  rw [hsplit, List.find?_append, List.find?_eq_none.2, List.find?_cons_of_pos]
  · rfl
  · simpa [hw] using hm
  · intro j hj
    simp only [List.mem_range'_1] at hj
    have hb := before j (by omega) (by omega)
    cases hj' : words[j]? with
    | none => simp
    | some x => simp [hb x (by simp [hj'])]

/-- No word from `start` on is to be offered. -/
theorem nextMasked_eq_none {words : List WriteWord} {start : Nat} (h : ∀ j, start ≤ j → ∀ x ∈ words[j]?, x.mask = 0) :
    nextMasked words start = none := by
  unfold nextMasked
  rw [List.find?_eq_none]
  intro j hj
  rw [List.range_eq_range', List.drop_range'] at hj
  simp only [List.mem_range'_1] at hj
  have hb := h j (by omega)
  cases hj' : words[j]? with
  | none => simp
  | some x => simp [hb x (by simp [hj'])]

theorem maskedBefore_length (words : List WriteWord) : maskedBefore words words.length = words.countP fun x => x.mask ≠ 0 := by
  unfold maskedBefore
  rw [List.take_length, List.countP_eq_length_filter]
  congr 2
  funext x
  simp [bne, beq_eq_decide]

/-! ### The merge queue -/

theorem updateEntry_split {older younger : List MergeEntry} {e : MergeEntry} {f : MergeEntry → MergeEntry}
    (ho : ∀ x ∈ older, x.stamp ≠ e.stamp) (hy : ∀ x ∈ younger, x.stamp ≠ e.stamp) :
    updateEntry (older ++ e :: younger) e.stamp f = older ++ f e :: younger := by
  have keep : ∀ l : List MergeEntry, (∀ x ∈ l, x.stamp ≠ e.stamp) → l.map (fun x => if x.stamp = e.stamp then f x else x) = l := by
    intro l hl
    conv => rhs; rw [← List.map_id l]
    exact List.map_congr_left fun x hx => by simp [hl x hx]
  simp [updateEntry, keep older ho, keep younger hy]

theorem eraseP_split {older younger : List MergeEntry} {e : MergeEntry} (ho : ∀ x ∈ older, x.stamp ≠ e.stamp) :
    (older ++ e :: younger).eraseP (fun x => x.stamp == e.stamp) = older ++ younger := by
  rw [List.eraseP_append_right _ (by simpa using ho)]
  simp

theorem State.entry?_split {s : State} {older younger : List MergeEntry} {e : MergeEntry} (h : s.merge.queue = older ++ e :: younger)
    (ho : ∀ x ∈ older, x.stamp ≠ e.stamp) : s.entry? e.stamp = some e := by
  unfold State.entry?
  rw [h, List.find?_append, List.find?_eq_none.2 (by simpa using ho)]
  simp

/-- The entry that is found is the entry of the statements. -/
theorem State.entry?_eq_some_iff (s : State) (stamp : Nat) (e : MergeEntry) : s.entry? stamp = some e ↔ HasEntry s stamp e := by
  unfold State.entry? HasEntry
  rw [List.find?_eq_some_iff_append]
  constructor
  · rintro ⟨h, as, bs, hq, hn⟩; exact ⟨as, bs, hq, by simpa using h, by simpa using hn⟩
  · rintro ⟨as, bs, hq, h, hn⟩; exact ⟨by simpa using h, as, bs, hq, by simpa using hn⟩

theorem State.entry?_eq_none_iff (s : State) (stamp : Nat) : s.entry? stamp = none ↔ NoEntry s stamp := by
  unfold State.entry? NoEntry
  simp [List.find?_eq_none]

theorem youngest_split {older younger : List MergeEntry} {e : MergeEntry} {a : Addr} (ha : e.addr = a)
    (hy : ∀ x ∈ younger, x.addr ≠ a) : youngest (older ++ e :: younger) a = some e := by
  unfold youngest
  have : younger.filter (fun e => e.addr == a) = [] := by
    rw [List.filter_eq_nil_iff]; simpa using hy
  simp [List.filter_append, ha, this]

/-- The youngest entry for a word splits the queue. -/
theorem youngest_some {queue : List MergeEntry} {a : Addr} {e : MergeEntry} (h : youngest queue a = some e) :
    ∃ older younger, queue = older ++ e :: younger ∧ e.addr = a ∧ ∀ x ∈ younger, x.addr ≠ a := by
  induction queue with
  | nil => simp [youngest] at h
  | cons x xs ih =>
    by_cases hx : ∃ z ∈ xs, z.addr = a
    · have : youngest xs a = some e := by
        unfold youngest at h ⊢
        rw [List.filter_cons] at h
        split at h
        · have hne : xs.filter (fun e => e.addr == a) ≠ [] := by
            obtain ⟨z, hz, hza⟩ := hx
            exact List.ne_nil_of_mem (List.mem_filter.2 ⟨hz, by simpa using hza⟩)
          obtain ⟨y, ys, hys⟩ := List.exists_cons_of_ne_nil hne
          rw [hys] at h ⊢
          rwa [List.getLast?_cons_cons] at h
        · exact h
      obtain ⟨older, younger, hq, ha, hy⟩ := ih this
      exact ⟨x :: older, younger, by simp [hq], ha, hy⟩
    · have hxs : xs.filter (fun e => e.addr == a) = [] := by
        rw [List.filter_eq_nil_iff]
        intro z hz
        simpa using fun hza => hx ⟨z, hz, hza⟩
      unfold youngest at h
      rw [List.filter_cons, hxs] at h
      split at h
      · rename_i ha
        simp only [List.getLast?_singleton, Option.some.injEq] at h
        subst h
        exact ⟨[], xs, rfl, eq_of_beq ha, fun z hz hza => hx ⟨z, hz, hza⟩⟩
      · simp at h

/-! ### The arbiter -/

/-- A grant to another request than the scrub write (R128, R131, R132, R134). -/
theorem State.issue_traffic_eq (s : State) (owner : Owner) (a : Addr) (request : MemRequest) (now : Nat) :
    s.issue owner a request now false = granted s owner a request now (starved s) := by
  unfold State.issue granted starved State.sendDown State.starvationAfter
  simp

/-- A grant to the scrub write (R132). -/
theorem State.issue_scrub_eq (s : State) (owner : Owner) (a : Addr) (request : MemRequest) (now : Nat) :
    s.issue owner a request now true = granted s owner a request now 0 := by
  unfold State.issue granted State.sendDown State.starvationAfter
  simp

/-- While the scrub write is not owed its share, other offers come first (R131). -/
theorem State.winner_eq_traffic {s : State} (h : ShareNotOwed s) {o : Offer} (ht : s.trafficWinner = some o) : s.winner = some o := by
  unfold State.winner State.scrubOffer
  by_cases ho : s.scrub.engine = .offering
  · rw [if_pos ho]
    cases hj : s.scrub.jobs with
    | nil => simpa using ht
    | cons j jobs =>
      have := h ho (by simp [hj])
      simp only [List.head?_cons, ht]
      rw [if_neg (by omega)]
      rfl
  · simpa [if_neg ho] using ht

/-- The model's test of an offered write-back is the term of the statements (R49). -/
theorem MergeEntry.offersWriteBack_iff (e : MergeEntry) : e.offersWriteBack = true ↔ OffersWriteBack e := by
  unfold MergeEntry.offersWriteBack OffersWriteBack
  cases e.state <;> simp

/-- The model's test of eligibility is the term of the statements (R47). -/
theorem MergeEngine.eligible_iff (s : State) (e : MergeEntry) : s.merge.eligible e = true ↔ MayBeRead s e := by
  simp only [MergeEngine.eligible, MayBeRead, HeldRead.covers, covers, Bool.and_eq_true, List.all_eq_true, beq_iff_eq,
    Bool.not_eq_true', Bool.and_eq_false_iff, decide_eq_false_iff_not, beq_eq_false_iff_ne, and_assoc]
  refine and_congr Iff.rfl (and_congr ?_ ?_)
  · exact forall_congr' fun x => forall_congr' fun _ => by tauto
  · refine forall_congr' fun x => forall_congr' fun _ => by
      by_cases h : x.stamp < e.stamp <;> simp [h, imp_iff_not_or]

/-- The members that have a property are those that a test of it keeps. -/
theorem selects_filter {α : Type} {p : α → Prop} {q : α → Bool} (h : ∀ x, q x = true ↔ p x) (l r : List α) :
    Selects p l r ↔ r = l.filter q := by
  constructor
  · rintro ⟨q', h', rfl⟩
    have : q' = q := funext fun x => Bool.eq_iff_iff.2 ((h' x).trans (h x).symm)
    rw [this]
  · rintro rfl; exact ⟨q, h, rfl⟩

/-- The model's list of what stands offered is that of the statements (R131, R136). -/
theorem State.offersInOrder_iff (s : State) (fs : List Failing) : OffersInOrder s fs ↔ fs = s.standing := by
  unfold OffersInOrder State.standing MergeEngine.eligibleReads
  simp only [selects_filter MergeEntry.offersWriteBack_iff, selects_filter (MergeEngine.eligible_iff s), exists_and_left, exists_eq_left]

/-- The reads that a failure makes eligible are those of the statements (R137). -/
theorem newReads_iff (s u : State) (reads : List MergeEntry) :
    Selects (fun e => MayBeRead u e ∧ ∀ x ∈ s.merge.queue, MayBeRead s x → x.stamp ≠ e.stamp) u.merge.queue reads ↔
      reads = newReads s.merge u.merge := by
  unfold newReads MergeEngine.eligibleReads
  rw [List.filter_filter]
  apply selects_filter
  intro e
  simp only [Bool.and_eq_true, Bool.not_eq_true', ← Bool.not_eq_true, List.any_eq_true, List.mem_filter, beq_iff_eq, MergeEngine.eligible_iff]
  rw [and_comm]
  refine and_congr Iff.rfl ?_
  push Not
  exact ⟨fun h x hx hm => h x ⟨hx, hm⟩, fun h x hx => h x hx.1 hx.2⟩

/-- Nothing stands offered but a scrub write (R130). -/
theorem State.standing_eq_nil_iff (s : State) : s.standing = [] ↔ NothingOffered s := by
  unfold State.standing NothingOffered MergeEngine.eligibleReads
  simp only [List.append_eq_nil_iff, List.map_eq_nil_iff, List.filter_eq_nil_iff, MergeEntry.offersWriteBack_iff, MergeEngine.eligible_iff]
  constructor
  · rintro ⟨⟨h1, h2⟩, h3⟩; exact ⟨h2, fun e he => ⟨h1 e he, h3 e he⟩⟩
  · rintro ⟨h1, h2⟩; exact ⟨⟨fun e he => (h2 e he).1, h1⟩, fun e he => (h2 e he).2⟩

/-- With nothing offered, the scrub write included, there is no winner (R131). -/
theorem State.winner_eq_none {s : State} (h : NothingOffered s) (hs : ¬(s.scrub.engine = .offering ∧ s.scrub.jobs ≠ [])) : s.winner = none := by
  have ht : s.trafficWinner = none := by
    unfold State.trafficWinner
    rw [List.find?_eq_none.2 fun e he ho => (h.2 e he).1 ((MergeEntry.offersWriteBack_iff e).1 ho), h.1]
    simp only
    rw [List.find?_eq_none.2 fun e he ho => (h.2 e he).2 ((MergeEngine.eligible_iff s e).1 ho)]
    rfl
  have ho : s.scrubOffer = none := by
    unfold State.scrubOffer
    split
    · rename_i he
      cases hj : s.scrub.jobs with
      | nil => rfl
      | cons => exact absurd ⟨he, by simp [hj]⟩ hs
    · rfl
  unfold State.winner
  rw [ho, ht]

theorem State.offerPlain_outstanding (s : State) (w : PlainWrite) : (s.offerPlain w).port.outstanding = s.port.outstanding := by
  unfold State.offerPlain
  (repeat' split) <;> simp

theorem State.wordPassed_outstanding (s : State) (x : PassWord) : (s.wordPassed x).port.outstanding = s.port.outstanding := by
  unfold State.wordPassed
  (repeat' split) <;> simp [State.offerPlain_outstanding]

/-- A grant adds one request to the outstanding list (R128, R134); a merge read is that of the entry chosen (R131). -/
theorem State.grantOffer_outstanding (s : State) (x : Offer) (now : Nat) :
    ∃ o, (s.grantOffer x now).port.outstanding = s.port.outstanding ++ [o] ∧ o.deadline = now + s.port.timeout ∧
      ∀ stamp, o.owner = .mergeRead stamp → ∃ e, x = .mergeRead e ∧ e.stamp = stamp ∧ o.addr = e.addr := by
  cases x with
  | scrub j => exact ⟨_, rfl, rfl, fun _ h => nomatch h⟩
  | writeBack e => exact ⟨_, rfl, rfl, fun _ h => nomatch h⟩
  | word x =>
    refine ⟨_, State.wordPassed_outstanding _ x, rfl, fun stamp h => ?_⟩
    unfold PassWord.request at h
    dsimp only at h
    split at h <;> cases h
  | mergeRead e => exact ⟨_, rfl, rfl, fun _ h => by cases h; exact ⟨e, rfl, rfl, rfl⟩⟩

/-! ### The ranges of a region -/

theorem Region.inRange_iff (r : Region) (base a : Addr) : r.inRange base a = true ↔ InRange r base a.toNat := by
  rw [Region.inRange, InRange, Region.spanBytes, Config.granuleBytes, Bool.and_eq_true, decide_eq_true_iff, decide_eq_true_iff]

theorem mem_allRegions (ix : RegionIx) : ix ∈ allRegions := by revert ix; decide

/-- A word lies in a bank of an enabled region (R2, R15). -/
theorem inAnyBank_iff (regions : Vector Region 16) (a : Addr) : inAnyBank regions a = true ↔ ∃ ix : RegionIx,
    regions[ix].enabled = true ∧ ∃ base ∈ regions[ix].bankABase :: regions[ix].bankBBase.toList, InRange regions[ix] base a.toNat := by
  unfold inAnyBank Region.inBank
  simp only [List.any_eq_true, Bool.and_eq_true, Bool.or_eq_true, Option.any_eq_true, Region.inRange_iff, List.mem_cons,
    Option.mem_toList, exists_eq_or_imp]
  exact ⟨fun ⟨ix, _, h⟩ => ⟨ix, h⟩, fun ⟨ix, h⟩ => ⟨ix, mem_allRegions ix, h⟩⟩

theorem covers_iff (first : Addr) (length : Nat) (a : Addr) : covers first length a = true ↔ Covers first length a := by
  simp [covers]

theorem covers_eq (first : Addr) (length : Nat) (a : Addr) : covers first length a = decide (Covers first length a) := by
  simp [covers]

/-- The physical address of a live offset (R42). -/
theorem State.physical_eq (s : State) (ix : RegionIx) (offset : Addr) :
    s.physical ix offset = s.regions[ix].bankBase (bankNow s ix) + offset := rfl

/-- A word is PLAIN exactly when no enabled record gives it a class (R9). -/
theorem classifyWord_eq_plain_iff (regions : Vector Region 16) (a : Addr) :
    classifyWord regions a = .plain ↔ ∀ ix : RegionIx, regions[ix].classify ix a = none := by
  have hne : ∀ ix : RegionIx, regions[ix].classify ix a ≠ some .plain := by
    intro ix h
    unfold Region.classify at h
    split at h
    · cases h
    · split at h
      · cases h
      · split at h
        · cases h
        · split at h <;> cases h
  unfold classifyWord
  constructor
  · intro h ix
    cases hf : allRegions.findSome? fun ix => regions[ix].classify ix a with
    | none => exact List.findSome?_eq_none_iff.1 hf ix (mem_allRegions ix)
    | some c =>
      rw [hf] at h
      obtain ⟨j, -, hj⟩ := List.exists_of_findSome?_eq_some hf
      cases h
      exact absurd hj (hne j)
  · intro h
    rw [List.findSome?_eq_none_iff.2 fun ix _ => h ix]
    rfl

/-- A PLAIN word lies in no bank of an enabled region. -/
theorem inAnyBank_of_plain {regions : Vector Region 16} {a : Addr} (h : classifyWord regions a = .plain) :
    inAnyBank regions a = false := by
  rw [classifyWord_eq_plain_iff] at h
  unfold inAnyBank
  rw [List.any_eq_false]
  intro ix _
  have := h ix
  unfold Region.classify at this
  cases he : regions[ix].enabled
  · simp
  · simp only [he, Bool.not_true, Bool.false_eq_true, if_false, Bool.true_and] at this ⊢
    split at this
    · cases this
    · split at this
      · cases this
      · split at this
        · cases this
        · assumption

/-! ### Validation -/

theorem LaneWidth.maxValue_eq (w : LaneWidth) : w.maxValue = largest w := by cases w <;> rfl

/-- Two ranges, each cut at FFFF_FFFFH, have a byte in common (R19). -/
theorem rangesMeet_iff (r q : Region) (x y : Addr) :
    rangesMeet (x.toNat, Nat.min (x.toNat + r.spanBytes) Config.addressSpace) (y.toNat, Nat.min (y.toNat + q.spanBytes) Config.addressSpace) = true ↔
      ∃ b, b < 2 ^ 32 ∧ InRange r x b ∧ InRange q y b := by
  have e : Config.addressSpace = 2 ^ 32 := rfl
  simp only [rangesMeet, decide_eq_true_iff, InRange, Region.spanBytes, e, Config.granuleBytes]
  show max _ _ < min (min _ _) (min _ _) ↔ _
  constructor
  · intro h
    exact ⟨max x.toNat y.toNat, by omega, by omega, by omega⟩
  · rintro ⟨b, h1, h2, h3⟩
    omega

theorem anyMeet_iff (l : List (Nat × Nat)) : anyMeet l = true ↔ ¬l.Pairwise fun x y => rangesMeet x y = false := by
  induction l with
  | nil => simp [anyMeet]
  | cons x xs ih => rw [anyMeet, Bool.or_eq_true, ih, List.pairwise_cons, not_and_or]; simp

/-- OVERLAP (R19). -/
theorem overlapFails_iff (regions : Vector Region 16) (ix : RegionIx) : overlapFails regions ix = true ↔ CheckFails regions ix .overlap := by
  have hr : ∀ r : Region, r.ranges =
      (namedBases r).map fun base => (base.toNat, Nat.min (base.toNat + r.spanBytes) Config.addressSpace) := fun _ => rfl
  unfold overlapFails CheckFails
  rw [Bool.or_eq_true, anyMeet_iff, hr, List.pairwise_map]
  apply or_congr
  · refine not_congr (List.Pairwise.iff ?_)
    intro x y
    rw [← Bool.not_eq_true, rangesMeet_iff]
    push Not
    rfl
  · simp only [List.any_eq_true, Bool.and_eq_true, bne_iff_ne, ne_eq, hr, List.any_map, Function.comp_def, rangesMeet_iff]
    constructor
    · rintro ⟨o, -, ⟨h1, h2⟩, x, hx, y, hy, h⟩; exact ⟨o, h1, h2, x, hx, y, hy, h⟩
    · rintro ⟨o, h1, h2, x, hx, y, hy, h⟩; exact ⟨o, mem_allRegions o, ⟨h1, h2⟩, x, hx, y, hy, h⟩

/-- GROUP_FIELDS (R17). -/
theorem Region.groupFieldsFail_iff (regions : Vector Region 16) (ix : RegionIx) : regions[ix].groupFieldsFail = true ↔ CheckFails regions ix .groupFields := by
  unfold Region.groupFieldsFail CheckFails
  cases regions[ix].group <;> simp [Option.isSome_iff_ne_none]

/-- WRAP (R17). -/
theorem Region.wrapFails_iff (regions : Vector Region 16) (ix : RegionIx) : regions[ix].wrapFails = true ↔ CheckFails regions ix .wrap := by
  unfold Region.wrapFails CheckFails
  rw [List.any_eq_true]; simp only [decide_eq_true_iff]; rfl

/-- THRESHOLD (R18). -/
theorem Region.thresholdFails_iff (regions : Vector Region 16) (ix : RegionIx) : regions[ix].thresholdFails = true ↔ CheckFails regions ix .threshold := by
  unfold Region.thresholdFails CheckFails
  cases h : regions[ix].threshold <;> simp [LaneWidth.maxValue_eq]

/-- PATTERN (R18). -/
theorem Region.patternFails_iff (regions : Vector Region 16) (ix : RegionIx) : regions[ix].patternFails = true ↔ CheckFails regions ix .pattern := by
  unfold Region.patternFails CheckFails
  simp

/-- The first check that fails is the result for the region (R16). -/
theorem checkRegion_eq_some {regions : Vector Region 16} {ix : RegionIx} {reason : ArmReason} (he : regions[ix].enabled = true)
    (hr : CheckFails regions ix reason) (first : ∀ earlier : ArmReason, earlier.code.toNat < reason.code.toNat → ¬CheckFails regions ix earlier) :
    checkRegion regions ix = some reason := by
  unfold checkRegion
  rw [he]
  have hg := first .groupFields
  have hw := first .wrap
  have ht := first .threshold
  have hp := first .pattern
  rw [← Region.groupFieldsFail_iff] at hg
  rw [← Region.wrapFails_iff] at hw
  rw [← Region.thresholdFails_iff] at ht
  rw [← Region.patternFails_iff] at hp
  cases reason
  · rw [← Region.groupFieldsFail_iff] at hr; simp [-Fin.getElem_fin, hr]
  · rw [← Region.wrapFails_iff] at hr; simp [-Fin.getElem_fin, hr, Bool.eq_false_iff.2 (hg (by decide))]
  · rw [← Region.thresholdFails_iff] at hr; simp [-Fin.getElem_fin, hr, Bool.eq_false_iff.2 (hg (by decide)), Bool.eq_false_iff.2 (hw (by decide))]
  · rw [← Region.patternFails_iff] at hr
    simp [-Fin.getElem_fin, hr, Bool.eq_false_iff.2 (hg (by decide)), Bool.eq_false_iff.2 (hw (by decide)), Bool.eq_false_iff.2 (ht (by decide))]
  · rw [← overlapFails_iff] at hr
    simp [-Fin.getElem_fin, hr, Bool.eq_false_iff.2 (hg (by decide)), Bool.eq_false_iff.2 (hw (by decide)), Bool.eq_false_iff.2 (ht (by decide)), Bool.eq_false_iff.2 (hp (by decide))]

/-- A region that is disabled, or that fails no check, has no result (R16). -/
theorem checkRegion_eq_none {regions : Vector Region 16} {ix : RegionIx}
    (h : regions[ix].enabled = true → ∀ reason, ¬CheckFails regions ix reason) : checkRegion regions ix = none := by
  unfold checkRegion
  cases he : regions[ix].enabled
  · rfl
  · have h := h he
    have hg := h .groupFields
    have hw := h .wrap
    have ht := h .threshold
    have hp := h .pattern
    have ho := h .overlap
    rw [← Region.groupFieldsFail_iff, Bool.not_eq_true] at hg
    rw [← Region.wrapFails_iff, Bool.not_eq_true] at hw
    rw [← Region.thresholdFails_iff, Bool.not_eq_true] at ht
    rw [← Region.patternFails_iff, Bool.not_eq_true] at hp
    rw [← overlapFails_iff, Bool.not_eq_true] at ho
    simp [-Fin.getElem_fin, hg, hw, ht, hp, ho]

/-- An enabled region with no result fails no check (R16). -/
theorem not_checkFails_of_none {regions : Vector Region 16} {ix : RegionIx} (he : regions[ix].enabled = true)
    (h : checkRegion regions ix = none) (reason : ArmReason) : ¬CheckFails regions ix reason := by
  unfold checkRegion at h
  rw [he, if_neg (by decide)] at h
  by_cases hg : regions[ix].groupFieldsFail = true
  · rw [if_pos hg] at h; cases h
  rw [if_neg hg] at h
  by_cases hw : regions[ix].wrapFails = true
  · rw [if_pos hw] at h; cases h
  rw [if_neg hw] at h
  by_cases ht : regions[ix].thresholdFails = true
  · rw [if_pos ht] at h; cases h
  rw [if_neg ht] at h
  by_cases hp : regions[ix].patternFails = true
  · rw [if_pos hp] at h; cases h
  rw [if_neg hp] at h
  by_cases ho : overlapFails regions ix = true
  · rw [if_pos ho] at h; cases h
  intro hf
  cases reason with
  | groupFields => exact hg ((Region.groupFieldsFail_iff _ _).2 hf)
  | wrap => exact hw ((Region.wrapFails_iff _ _).2 hf)
  | threshold => exact ht ((Region.thresholdFails_iff _ _).2 hf)
  | pattern => exact hp ((Region.patternFails_iff _ _).2 hf)
  | overlap => exact ho ((overlapFails_iff _ _).2 hf)

/-! ### Lanes -/

theorem LaneWidth.bytes_eq (w : LaneWidth) : w.bytes = laneBytes w := by cases w <;> rfl

/-- The mask bits of a lane, one by one (R22). -/
theorem laneMask_testBit (w : LaneWidth) (mask : Byte) (k i : Nat) (h : i < laneBytes w) :
    (laneMask w mask k).testBit i = mask.getLsbD (laneBytes w * k + i) := by
  simp [laneMask, LaneWidth.bytes_eq, Nat.testBit_mod_two_pow, Nat.testBit_div_two_pow, h, BitVec.getLsbD, Nat.add_comm]

theorem laneMask_lt (w : LaneWidth) (mask : Byte) (k : Nat) : laneMask w mask k < 2 ^ laneBytes w := by
  rw [← LaneWidth.bytes_eq]
  exact Nat.mod_lt _ (Nat.two_pow_pos _)

/-- The model's test of a full lane is the term of the statements (R22). -/
theorem laneFull_iff (w : LaneWidth) (mask : Byte) (k : Nat) : laneFull w mask k = true ↔ LaneFull w mask k := by
  unfold laneFull LaneFull
  rw [beq_iff_eq, LaneWidth.bytes_eq]
  constructor
  · intro h i hi
    rw [← laneMask_testBit w mask k i hi, h, Nat.testBit_two_pow_sub_one]
    simpa using hi
  · intro h
    apply Nat.eq_of_testBit_eq
    intro i
    rw [Nat.testBit_two_pow_sub_one]
    by_cases hi : i < laneBytes w
    · rw [laneMask_testBit w mask k i hi, h i hi]
      simp [hi]
    · rw [Nat.testBit_lt_two_pow (lt_of_lt_of_le (laneMask_lt w mask k) (Nat.pow_le_pow_right (by decide) (Nat.not_lt.1 hi)))]
      simp [hi]

/-- The model's test of a partial lane is the term of the statements (R22). -/
theorem lanePartial_iff (w : LaneWidth) (mask : Byte) (k : Nat) : lanePartial w mask k = true ↔ LanePartial w mask k := by
  have hz : laneMask w mask k ≠ 0 ↔ ∃ i, i < laneBytes w ∧ mask.getLsbD (laneBytes w * k + i) = true := by
    constructor
    · intro h
      obtain ⟨i, hi⟩ := Nat.exists_testBit_of_ne_zero h
      by_cases hl : i < laneBytes w
      · exact ⟨i, hl, by rw [← laneMask_testBit w mask k i hl]; exact hi⟩
      · rw [Nat.testBit_lt_two_pow (lt_of_lt_of_le (laneMask_lt w mask k) (Nat.pow_le_pow_right (by decide) (Nat.not_lt.1 hl)))] at hi
        cases hi
    · rintro ⟨i, hl, hi⟩ h0
      rw [← laneMask_testBit w mask k i hl, h0] at hi
      simp at hi
  unfold lanePartial
  rw [Bool.and_eq_true, Bool.not_eq_true', ← Bool.not_eq_true, laneFull_iff, bne_iff_ne, hz]
  unfold LaneFull LanePartial
  push Not
  simp only [Bool.not_eq_true, and_comm]

theorem maskPartial_iff (w : LaneWidth) (mask : Byte) : maskPartial w mask = true ↔ ∃ k, LanePartial w mask k := by
  unfold maskPartial
  simp only [List.any_eq_true, List.mem_range, lanePartial_iff]
  constructor
  · rintro ⟨k, -, h⟩; exact ⟨k, h⟩
  · rintro ⟨k, h⟩
    refine ⟨k, ?_, h⟩
    obtain ⟨⟨i, -, hi⟩, -⟩ := h
    have := BitVec.lt_of_getLsbD hi
    cases w <;> simp only [laneBytes, LaneWidth.lanes] at this ⊢ <;> omega

/-- The lanes of a word and the value of one, bit by bit (R21). -/
theorem laneValue_testBit (w : LaneWidth) (word : Word64) (k i : Nat) (h : i < 8 * laneBytes w) :
    (laneValue w word k).testBit i = word.getLsbD (8 * (laneBytes w * k) + i) := by
  simp [laneValue, LaneWidth.bits, LaneWidth.bytes_eq, Nat.testBit_mod_two_pow, Nat.testBit_div_two_pow, h, BitVec.getLsbD, Nat.add_comm, Nat.mul_assoc]

/-- The value, the clamp verdict and the crossing of a lane (R24, R26, R36), by what the entry holds for it. -/
theorem laneOutcome_cases (e : MergeEntry) (threshold : Option Word64) (data : Word64) (k : Nat) :
    (∃ a, e.lanes[k]? = some (some a) ∧ laneOutcome e threshold data k = {
        lane := k, result := laneResult e.operation e.width (laneValue e.width data k) a.value
        clamps := laneClamps e.operation e.width (laneValue e.width data k) a
        crosses := laneCrosses e.operation threshold (laneValue e.width data k)
          (laneResult e.operation e.width (laneValue e.width data k) a.value) }) ∨
      ((∀ a, e.lanes[k]? ≠ some (some a)) ∧
        laneOutcome e threshold data k = { lane := k, result := laneValue e.width data k, clamps := false, crosses := false }) := by
  unfold laneOutcome
  rw [List.getD_eq_getElem?_getD]
  match h : e.lanes[k]? with
  | none => exact .inr ⟨fun a ha => (nomatch ha), rfl⟩
  | some none => exact .inr ⟨fun a ha => (nomatch ha), rfl⟩
  | some (some a) => exact .inl ⟨a, rfl, rfl⟩

/-- The lane unit's crossing is that of the statements (R36). -/
theorem laneOutcome_crosses_iff (e : MergeEntry) (threshold : Option Word64) (data : Word64) (k : Nat) :
    (laneOutcome e threshold data k).crosses = true ↔ laneCrossesOn e threshold data k := by
  obtain ⟨a, ha, h⟩ | ⟨ha, h⟩ := laneOutcome_cases e threshold data k
  · rw [h]
    simp only [laneCrosses, laneCrossesOn, ha]
    cases threshold with
    | none => simp
    | some t => cases e.operation <;> simp [Operation.watchesDown]
  · rw [h]
    constructor
    · intro hf
      cases hf
    · rintro ⟨t, a, -, h2, -⟩
      exact absurd h2 (ha a)

/-- The lane unit's clamp verdict is that of the statements (R26). -/
theorem laneOutcome_clamps (e : MergeEntry) (threshold : Option Word64) (data : Word64) (k : Nat) :
    (laneOutcome e threshold data k).clamps = laneClampsOn e data k := by
  unfold laneClampsOn
  obtain ⟨a, ha, h⟩ | ⟨ha, h⟩ := laneOutcome_cases e threshold data k
  · rw [h, ha]
  · rw [h]
    match hl : e.lanes[k]? with
    | none => rfl
    | some none => rfl
    | some (some a) => exact absurd hl (ha a)

/-- The lane unit's result is that of the statements (R24). -/
theorem laneOutcome_result (e : MergeEntry) (threshold : Option Word64) (data : Word64) (k : Nat) :
    (laneOutcome e threshold data k).result = laneResultOn e data k := by
  unfold laneResultOn
  obtain ⟨a, ha, h⟩ | ⟨ha, h⟩ := laneOutcome_cases e threshold data k
  · rw [h, ha]
  · rw [h]
    match hl : e.lanes[k]? with
    | none => rfl
    | some none => rfl
    | some (some a) => exact absurd hl (ha a)

/-! ### Contributions -/

theorem MergeEntry.joinable_iff (e : MergeEntry) : e.joinable = true ↔ e.state = .waiting ∧ e.pinned = false := by
  unfold MergeEntry.joinable
  cases e.state <;> cases e.pinned <;> simp

/-- After a contribution is taken the queue is not empty. -/
theorem State.contribute_queue_ne_nil {s u : State} {ix : RegionIx} {offset : Addr} {word : WriteWord}
    (h : s.contribute ix offset word = some u) : u.merge.queue ≠ [] := by
  obtain ⟨y, hy, -, rfl⟩ | ⟨-, -, rfl⟩ := State.contribute_cases h
  · obtain ⟨older, younger, hq, -⟩ := youngest_some hy
    simp [State.setQueue, updateEntry, hq]
  · simp

/-- A contribution that is taken changes the merge engine only. -/
theorem State.contribute_frame {s u : State} {ix : RegionIx} {offset : Addr} {word : WriteWord}
    (h : s.contribute ix offset word = some u) : u = { s with merge := u.merge } := by
  obtain ⟨y, -, -, rfl⟩ | ⟨-, -, rfl⟩ := State.contribute_cases h <;> rfl

/-! ### Steps at which nothing else happens -/

/-- Nothing happens, with RESET asserted and without. -/
theorem State.unlessReset_self (s : State) : s.unlessReset s = s := by unfold State.unlessReset; split <;> rfl

/-- CONTRIBUTION without an open LIVE write (log 6). -/
theorem State.presentNext_none {s : State} (h : ∀ w stalled, s.host.intake ≠ .liveWrite w stalled) : s.presentNext = s := by
  unfold State.presentNext
  cases hi : s.host.intake with
  | liveWrite w stalled => exact absurd hi (h w stalled)
  | _ => rfl

/-- STALLED_READ_PRESENTED without a stalled LIVE read (log 6). -/
theorem State.presentStalled_none {s : State} (h : ∀ r, s.host.intake ≠ .liveRead r) : s.presentStalled = s := by
  unfold State.presentStalled
  cases hi : s.host.intake with
  | liveRead r => exact absurd hi (h r)
  | _ => rfl

/-- In a state as R137 leaves it, a step that offers nothing settles at once. -/
theorem State.settle_of_still {s u : State} (h : s.port.state = .failed → NothingOffered s) (hp : u.port = s.port)
    (hm : u.merge = s.merge) : u.settle = u := by
  by_cases hf : s.port.state = .failed
  · have hs := s.standing_eq_nil_iff.2 (h hf)
    have hst : u.standing = s.standing := by simp only [State.standing, hp, hm]
    have ho : u.port.offered = [] := by
      rw [hp]
      simp only [State.standing, List.append_eq_nil_iff, List.map_eq_nil_iff] at hs
      exact hs.1.2
    have hself : ({ u with port := { u.port with offered := [] } } : State) = u := by rw [← ho]
    unfold State.settle
    rw [if_pos (by rw [hp]; exact hf), hst, hs, hself]
    rfl
  · exact State.settle_of_not_failed (by rw [hp]; exact hf)

/-- The first request on the channel is taken by an IDLE intake (R111, R113). -/
theorem exec_hostRequest_of_takes {s : State} {arriving : Option HostRequest} {r : HostRequest} {rest : List HostRequest}
    (h : Takes s arriving r rest) : exec (.hostRequest arriving) s = .next ((withChannel s rest).takeRequest r).settle := by
  obtain ⟨hr, hi, hc, -⟩ := h
  simp only [exec, execHostRequest, State.unlessReset_released hr, State.arrive, State.takeNext, hc, hi, if_true]
  simp only [withChannel, hi]

/-- The request frame of a command that the link listens to is executed and answered (R174). -/
theorem State.receive_of_listens {s : State} {c : Instr} (h : Listens s c) (done : State × Reply) :
    s.receive (frameOf c) done = done.1.respond (frameOf c) done.2 := by
  simp only [State.receive, h.1, h.2, if_true, Bool.false_eq_true, if_false]

/-- Everything that the last bit of a frame does: nothing under RESET; the frame is executed and answered; or it is ignored, and the
response is shifted on (R170, R174, R175). -/
theorem State.receive_cases (s : State) (frame : List Byte) (done : State × Reply) :
    (s.resetAsserted = true ∧ s.receive frame done = s) ∨
      (s.resetAsserted = false ∧ s.link.takes frame = true ∧ s.receive frame done = done.1.respond frame done.2) ∨
      (s.resetAsserted = false ∧ s.link.takes frame = false ∧
        s.receive frame done = { s with link := { s.link with response := s.link.response.drop frame.length } }) := by
  unfold State.receive
  cases hr : s.resetAsserted
  · cases ht : s.link.takes frame <;> simp
  · simp

/-- A byte completes a request frame when RESET is released, the transfer is taken, and its frame was not complete before it (R171). -/
theorem Link.completedBy_eq_some {l : Link} {asserted : Bool} {b : Byte} {frame : List Byte} :
    l.completedBy asserted b = some frame ↔ asserted = false ∧ l.reception = .taking ∧ frameComplete l.receiver = false ∧
      frameComplete frame = true ∧ frame = l.receiver ++ [b] := by
  unfold Link.completedBy
  constructor
  · intro h
    split at h
    · rename_i hc
      simp only [Bool.and_eq_true, Bool.not_eq_true', beq_iff_eq] at hc
      cases h
      exact ⟨hc.1.1.1, hc.1.1.2, hc.1.2, hc.2, rfl⟩
    · cases h
  · rintro ⟨h1, h2, h3, h4, rfl⟩
    simp [h1, h2, h3, h4]

/-- Everything that one bit does (R170): it is ignored, it is kept, its byte runs the frame it completes, or its byte is taken. -/
theorem State.clockBit_cases (s : State) (value : Bool) (now : Nat) :
    (s.link.selected = false ∧ s.clockBit value now = .next s) ∨
      (s.link.selected = true ∧ s.link.bits.length < 7 ∧
        s.clockBit value now = .next { s with link := { s.link with bits := s.link.bits ++ [value] } }) ∨
      (s.link.selected = true ∧ 7 ≤ s.link.bits.length ∧
        (∃ frame, s.link.completedBy s.resetAsserted (byteOf (s.link.bits ++ [value])) = some frame ∧
          s.clockBit value now = exec (commandOfFrame now frame) s)) ∨
      (s.link.selected = true ∧ 7 ≤ s.link.bits.length ∧
        s.link.completedBy s.resetAsserted (byteOf (s.link.bits ++ [value])) = none ∧
        s.clockBit value now =
          .next { s with link := s.link.byteClocked s.resetAsserted (byteOf (s.link.bits ++ [value])) }) := by
  unfold State.clockBit
  cases hs : s.link.selected
  · simp
  · by_cases hb : s.link.bits.length < 7
    · simp [hb]
    · cases hc : s.link.completedBy s.resetAsserted (byteOf (s.link.bits ++ [value])) <;> simp [hb, Nat.not_lt.mp hb, hc]

/-- Everything that a step does: the command in front runs, or the next signal is sampled, or the part idles. -/
theorem step_cases (s : State) :
    (∃ c rest, s.pending = c :: rest ∧ step s = exec c { s with pending := rest }) ∨
      (s.pending = [] ∧ ∃ x rest, s.pins = x :: rest ∧ step s = State.sample { s with pins := rest } x) ∨
      (s.pending = [] ∧ s.pins = [] ∧ step s = .next s) := by
  unfold step
  cases hp : s.pending with
  | cons c rest => exact .inl ⟨c, rest, rfl, rfl⟩
  | nil =>
    cases hx : s.pins with
    | cons x rest => exact .inr (.inl ⟨rfl, x, rest, rfl, rfl⟩)
    | nil => exact .inr (.inr ⟨rfl, rfl, rfl⟩)

/-- The answer to the oldest request is handed to its source, and the one behind it does not time out (R129, R135). -/
theorem exec_responseTaken_of_answers {s : State} {o : Outstanding} {rest : List Outstanding} {now : Arrival}
    (h : Answers s o rest now) {m : MemResponse} (hm : ∀ number, m ≠ .probe number) {u : State}
    (hu : (State.handResponse (withoutOldest s) o m).judgeStopping = u) (hr : u.port.outstanding = rest) :
    exec (.responseTaken m now) s = .next u := by
  obtain ⟨h0, h1, h2, h3⟩ := h
  have hself : ({ s with port := { s.port with outstanding := rest } } : State) = withoutOldest s := by simp [withoutOldest, h2]
  have hlapse : (u.oldestLapsed now.moment && !now.nextArrived) = false := by
    unfold State.oldestLapsed
    rw [hr]
    cases rest with
    | nil => simp
    | cons p _ =>
      rcases h3 p (by simp) with hp | hp
      · simp [Nat.not_lt.mpr hp]
      · simp [hp]
  have htake : s.takeAnswer m now = u := by
    unfold State.takeAnswer
    rw [h2]
    simp only [hself, hu, hlapse]
    rfl
  have hexec : exec (.responseTaken m now) s = .next (s.takeResponse m now) := by
    simp only [exec, execResponseTaken, State.unlessReset_released h0]
  rw [hexec]
  cases m with
  | probe number => exact absurd rfl (hm number)
  | read ok data => simp only [State.takeResponse, h1, if_true, htake]
  | write ok => simp only [State.takeResponse, h1, if_true, htake]

end Sys2Proof.Machine
end

