-- ==== Sys2Proof/Tests/Slice0.lean ====
section
/-! SUPPORT. Tests: the spec's worked examples, one step each, the checks of WellFormed, and a witness for the hypotheses of each
statement. Expected values are the spec's. -/

namespace Sys2Proof.Tests

/- One test after the other: a kernel evaluation holds a thread until all before it is checked. -/
set_option Elab.async false

open Sys2Proof.Machine Sys2Proof.Safety

/-! ### The map and the states of the worked examples -/

/-- Region 0 of the map of Chapter 1. -/
def region0 : Region := { Region.reset with
  enabled := true, liveBase := 0x10000000#32, size := 16, group := some 0, snapBase := some 0x11000000#32
  bankABase := 0x40000000#32, bankBBase := some 0x40100000#32, operation := .satAdd, width := .w32 }

/-- Region 1 of the map. -/
def region1 : Region := { Region.reset with
  enabled := true, liveBase := 0x10010000#32, size := 1, bankABase := 0x40200000#32, operation := .max, width := .w16 }

/-- Region 2 of the map. -/
def region2 : Region := { Region.reset with
  enabled := true, liveBase := 0x12000000#32, size := 256, group := some 0, snapBase := some 0x13000000#32
  bankABase := 0x50000000#32, bankBBase := some 0x50100000#32, operation := .bitSet, width := .w64 }

/-- The map of Chapter 1. -/
def map : Vector Region 16 := (((Vector.replicate 16 Region.reset).set 0 region0).set 1 region1).set 2 region2

/-- A group record. -/
def group (state : GroupState) (active : Bank) (epoch : Half) (pending : Bool) (drain : Nat) : Group :=
  { state := state, active := active, epoch := epoch, flipPending := pending, drainCount := drain, pinDriven := true }

/-- The map with nothing armed. -/
def mapped : State := { State.reset with regions := map }

/-- RUN with the map, group 0 as given and the other groups READY. -/
def running (g : Group) : State := { mapped with
  mode := .run, armOption := some .scrubAll
  groups := #v[g, group .ready .a 0 false 0, group .ready .a 0 false 0, group .ready .a 0 false 0] }

/-- RUN with group 0 READY on bank A in epoch 5. -/
def ready : State := running (group .ready .a 5 false 0)

/-- An entry of group 0 with one 32-bit operand in lane 0. -/
def entry (stamp : Nat) (a : Addr) (region : RegionIx) (bank : Bank) (state : EntryState) : MergeEntry where
  stamp := stamp
  addr := a
  region := region
  group := some 0
  bank := bank
  epoch := some (if bank = .a then 5 else 6)
  operation := .satAdd
  width := .w32
  lanes := [some { value := 10, saturated := false }, none]
  count := 1
  pinned := false
  state := state

/-- A state with a merge queue. -/
def withQueue (s : State) (queue : List MergeEntry) : State := { s with merge := { s.merge with queue := queue, nextStamp := 9 } }

/-- A state with requests outstanding, each with deadline 40. -/
def withOutstanding (s : State) (os : List (Owner × Addr)) : State :=
  { s with port := { s.port with outstanding := os.map fun o => { owner := o.1, addr := o.2, deadline := 40 } } }

/-- A job of a bank, part-way. -/
def job (region : RegionIx) (bank : Bank) (base : Addr) (size cursor : Nat) : ScrubJob :=
  { region := region, bank := bank, base := base, size := size, pattern := 0, cursor := cursor, failed := 0, firstFailed := none }

/-- A host request at a byte address. -/
def request (tag : Tag) (a : Nat) (kind : RequestKind) : HostRequest :=
  { tag := tag, wordAddress := BitVec.ofNat 29 (a / 8), kind := kind }

/-- A word to be written. -/
def word (mask : Byte) (data : Word64) : WriteWord := { mask := mask, data := data }

/-- A full word. -/
def full : WriteWord := word 0xFF#8 1

/-- A write of full words. -/
def fullWords (n : Nat) : RequestKind := .write (List.replicate n full)

/-- The state after a command. -/
def after (c : Instr) (s : State) : State :=
  match exec c s with
  | .next t => t
  | .fault _ => s
  | .refused _ => s

/-- What a record reports, in short: its serial, its kind and its cause. -/
def brief (s : State) : List (Nat × EventKind × Option Cause) :=
  s.events.queue.map fun r => (r.serial.toNat, r.report.kind, r.report.cause)

/-! ### WellFormed -/

theorem test_wellFormed_refuses_32_words : (Instr.hostRequest (some (request 0 0 (fullWords 32)))).wellFormed = false := by
  decide +kernel

theorem test_wellFormed_takes_31_words : (Instr.hostRequest (some (request 0 0 (fullWords 31)))).wellFormed = true := by
  decide +kernel

/-- A frame that passes the checks is no BAD_FRAME (the STATUS frame of Chapter 10). -/
theorem test_wellFormed_refuses_good_frame : (Instr.badFrame [0x01#8, 0x00#8, 0x15#8]).wellFormed = false := by decide +kernel

theorem test_wellFormed_refuses_incomplete_frame : (Instr.badFrame [0x01#8, 0x00#8]).wellFormed = false := by decide +kernel

theorem test_wellFormed_takes_wrong_crc : (Instr.badFrame [0x01#8, 0x00#8, 0x16#8]).wellFormed = true := by decide +kernel

/-! ### The machine and its queue -/

/-- An empty queue: the part idles (log 1). -/
theorem test_step_idles : step State.reset = .next State.reset := rfl

theorem test_step_takes_front :
    step { State.reset with pending := [.flipEdge, .status] } = .next { State.reset with pending := [.status] } := rfl

/-! ### The management link (Chapter 10) -/

/-- The STATUS request of the example: 01H, 00H, 15H. -/
theorem test_status_frame : frameOf .status = [0x01#8, 0x00#8, 0x15#8] := by decide +kernel

/-- The response EMPTY to an EVENT_TAKE: 06H, 00H, 7EH. -/
theorem test_event_take_empty : (after .eventTake State.reset).link.response = [0x06#8, 0x00#8, 0x7E#8] := by decide +kernel

/-- STATUS after reset: DONE, 6 pairs, and every item 0 (section 11.1). -/
theorem test_status_after_reset : (after .status State.reset).link.response.take 14 = 0x00#8 :: 0x06#8 :: List.replicate 12 0x00#8 := by
  decide +kernel

/-- MDOUT carries the response's first byte, the code of DONE; with MSEL high it is high-impedance (R170, R174). -/
theorem test_mdout : (after .status State.reset).mdout = some 0x00#8 ∧
    (after (.transferEnd []) (after .status State.reset)).mdout = none := by
  decide +kernel

/-- A second frame in one transfer is ignored: its three bytes only shift out three bytes of the response (R170). -/
theorem test_second_frame_ignored :
    let t := after .status State.reset
    after .eventTake t = { t with link := { t.link with response := t.link.response.drop 3 } } := by
  decide +kernel

/-- The link in a byte of which seven bits are in. -/
def seven (reception : Reception) (receiver : List Byte) (b : Byte) : Link :=
  { Link.opened with reception := reception, receiver := receiver, bits := (bitsOf b).take 7 }

/-- RUN with a link and the bit that comes next on MDIN. -/
def clocking (l : Link) (value : Bool) : State := { ready with link := l, pins := [.bit value 5] }

/-- The state after a step. -/
def stepped (s : State) : State :=
  match step s with
  | .next t => t
  | .fault _ => s
  | .refused _ => s

theorem step_eq_stepped {s : State} (h : (match step s with | .next _ => true | _ => false) = true) : step s = .next (stepped s) := by
  unfold stepped
  cases hs : step s <;> simp_all

/-- The last bit of the STATUS frame runs STATUS; the frame is the example's. -/
theorem test_last_bit_runs_status : stepped (clocking (seven .taking [0x01#8, 0x00#8] 0x15#8) true) = after .status ready := by
  decide +kernel

/-- The last bit of the first byte puts 01H in the receiver. -/
theorem test_first_byte : stepped (clocking (seven .taking [] 0x01#8) true) =
    { ready with link := { Link.opened with receiver := [0x01#8] } } := by
  decide +kernel

theorem test_bad_frame : (after (.badFrame [0x01#8, 0x00#8, 0x16#8]) State.reset).link.response.take 2 = [0x04#8, 0x00#8] := by
  decide +kernel

/-! ### Regions (Chapter 1) -/

/-- The requests of the decode example, in RUN. -/
theorem test_decode_in_run :
    decodeRequest .run map (request 0 0x10000100 (fullWords 4)) = .live 0 0x100#32 true ∧
    decodeRequest .run map (request 0 0x1000FFF8 (fullWords 2)) = .malformed ∧
    decodeRequest .run map (request 0 0x11000000 (.read 16)) = .snap 0 0 true ∧
    decodeRequest .run map (request 0 0x40100008 (fullWords 1)) = .aliasBank 0 ∧
    decodeRequest .run map (request 0 0x4000FFE0 (.read 8)) = .malformed ∧
    decodeRequest .run map (request 0 0x20000000 (.read 2)) = .plain ∧
    decodeRequest .run map (request 0 0xFFFFFFF8 (fullWords 2)) = .malformed ∧
    decodeRequest .run map (request 0 0x10010010 (.write [word 0x01#8 0])) = .malformed ∧
    decodeRequest .run map (request 0 0x10010010 (.write [word 0x03#8 0, word 0 0, word 0x0C#8 0])) = .live 1 0x10#32 true := by
  decide +kernel

/-- The same in STOPPING and in BYPASS. -/
theorem test_decode_outside_run :
    decodeRequest .stopping map (request 0 0x10010010 (.write [word 0x01#8 0])) = .live 1 0x10#32 false ∧
    decodeRequest .stopping map (request 0 0x40100008 (fullWords 1)) = .aliasBank 0 ∧
    decodeRequest .bypass map (request 0 0x1000FFF8 (fullWords 2)) = .plain ∧
    decodeRequest .bypass map (request 0 0xFFFFFFF8 (fullWords 2)) = .malformed := by
  decide +kernel

/-- The table of the second example of Chapter 1, with region 3's bank A base and threshold. -/
def failing (bankA : Addr) (threshold : Nat) : Vector Region 16 :=
  ((((Vector.replicate 16 Region.reset).set 0 region0).set 1 { region1 with size := 2, bankABase := 0x60000000#32 }).set 3
    { Region.reset with
      enabled := true, liveBase := 0x14000000#32, size := 1, bankABase := bankA, threshold := some (BitVec.ofNat 64 threshold) }).set 5
    { Region.reset with
      enabled := true, liveBase := 0x15000000#32, size := 4, bankABase := 0x61000000#32, operation := .satSub, width := .w32 }

theorem test_validation_example :
    validate (failing 0x60001000#32 300) = some (1, .overlap) ∧ validate (failing 0x60004000#32 300) = some (3, .threshold) ∧
    validate (failing 0x60004000#32 200) = some (5, .pattern) ∧ validate map = none := by
  decide +kernel

/-- REGION_READ of a record that was not written: size 0 and everything absent (R6). -/
theorem test_region_read_after_reset :
    (after (.regionRead 15 0) State.reset).link.response.take 46 = 0x00#8 :: 0x16#8 :: List.replicate 44 0x00#8 := by
  decide +kernel

/-- A REGION_WRITE whose size is 0 is refused for field 3 (R5). -/
theorem test_region_write_size_zero :
    (after (.regionWrite (Vector.replicate 44 0)) State.reset).link.response.take 3 = [0x03#8, 0x01#8, 0x03#8] := by
  decide +kernel

/-- Region 0 of the map by the table of R180, with bits 4 to 7 of the presence byte set and bytes that no field uses not 0: the record
stored is region 0 (R179). -/
theorem test_region_write_ignores :
    (after (.regionWrite #v[0x00#8, 0x77#8, 0x01#8, 0x01#8, 0x01#8, 0x02#8, 0x00#8, 0x00#8, 0xF3#8, 0x77#8, 0x00#8, 0x10#8, 0x10#8, 0x00#8,
      0x00#8, 0x00#8, 0x11#8, 0x00#8, 0x00#8, 0x00#8, 0x40#8, 0x00#8, 0x00#8, 0x00#8, 0x40#8, 0x10#8, 0x00#8, 0x00#8, 7#8, 7#8, 7#8, 7#8,
      7#8, 7#8, 7#8, 7#8, 7#8, 7#8, 7#8, 7#8, 7#8, 7#8, 7#8, 7#8]) State.reset).regions[0] = region0 := by
  decide +kernel

/-- A lane of 16 bits is full with 03H, partial with 01H and empty with 00H (R22). -/
theorem test_lane_conditions : laneFull .w16 0x03#8 0 = true ∧ lanePartial .w16 0x01#8 0 = true ∧ laneFull .w16 0x01#8 0 = false ∧
    lanePartial .w16 0x03#8 0 = false ∧ lanePartial .w16 0x00#8 0 = false ∧ laneFull .w64 0xFF#8 0 = true := by
  decide +kernel

/-! ### Modes and ARM (Chapters 5, 9 and 11) -/

/-- The startup jobs of the example of Chapter 5. -/
theorem test_startup_jobs : (startupJobs map).map (fun j => (j.region.val, j.bank, j.base.toNat, j.size)) =
    [(0, .a, 0x40000000, 8192), (0, .b, 0x40100000, 8192), (1, .a, 0x40200000, 512), (2, .a, 0x50000000, 131072),
      (2, .b, 0x50100000, 131072)] := by
  decide +kernel

/-- ARM KEEP of an empty table, as a reply: DONE, KEEP, RUN, no jobs. -/
theorem test_arm_keep : (after (.arm 2 0) State.reset).link.response.take 6 = [0x00#8, 0x02#8, 0x02#8, 0x02#8, 0x00#8, 0x00#8] := by
  decide +kernel

/-- Group 0 DRAINING and group 1 CLEANING, as in the example of Chapter 9. -/
def drainAndClean : State :=
  { withOutstanding (withQueue (running (group .draining .b 9 false 1))
      [entry 0 0x40000080#32 0 .a .reading, entry 1 0x40100100#32 0 .b .waiting])
      [(.mergeRead 0, 0x40000080#32), (.scrubWrite (some { region := 7, bank := .b }), 0x60001C20#32)] with
    groups := #v[group .draining .b 9 false 1, group .cleaning .a 4 false 0, group .ready .a 0 false 0, group .ready .a 0 false 0]
    scrub := { engine := .issued, jobs := [job 7 .b 0x60000000#32 1024 900] } }

/-- Step 1: the job is discarded and its write stays outstanding with no job; the entries stay. -/
theorem test_disarm_in_run : (after .disarm drainAndClean).mode = .stopping ∧ (after .disarm drainAndClean).scrub.jobs = [] ∧
    (after .disarm drainAndClean).port.outstanding.map Outstanding.owner = [.mergeRead 0, .scrubWrite none] ∧
    (after .disarm drainAndClean).merge = drainAndClean.merge := by
  decide +kernel

/-- Step 7: the last entry retires, and BYPASS follows with the active banks remembered. -/
theorem test_stopping_ends :
    let s := { withOutstanding (withQueue (running (group .held .b 9 false 0)) [entry 1 0x40100100#32 0 .b (.writing 0 10 true)])
      [(.mergeWrite 1, 0x40100100#32)] with mode := .stopping }
    let t := after (.responseTaken (.write true) ⟨0, false⟩) s
    t.mode = .bypass ∧ t.groups[0].state = .off ∧ t.groups[0].epoch = 9 ∧ t.remembered = #v[.b, .a, .a, .a] ∧
      brief t = [(0, .disarmed, none)] := by
  decide +kernel

theorem test_reset : after .reset drainAndClean = State.reset := by decide +kernel

/-- RESET asserted, with an edge and a transfer that begins meanwhile (R169, R175). -/
def resetHeld : State := { State.reset with resetAsserted := true }

/-- While RESET is asserted no request is taken and no edge has effect, MDOUT carries FFH, and a STATUS frame is not taken. -/
theorem test_reset_holds_the_part : after (.hostRequest (some (request 1 0x20000000 (.read 1)))) resetHeld = resetHeld ∧
    after .flipEdge resetHeld = resetHeld ∧ resetHeld.mdout = some 0xFF#8 ∧ after .status resetHeld = resetHeld := by
  decide +kernel

/-- RESET abandons a transfer: the rest of it is ignored until MSEL has risen and fallen again (R175). -/
theorem test_reset_abandons_transfer :
    let t := after .reset { ready with link := { Link.opened with receiver := [0x01#8] } }
    (after .status t).link.response = [] ∧ (after .status (after (.transferEnd []) t)).link.response.length = 15 := by
  decide +kernel

/-! ### Flips (Chapter 4) -/

/-- The queue at the start of the snapshot cycle of Chapter 4. -/
def cycle : State := withQueue ready
  [entry 0 0x40000040#32 0 .a .reading, entry 1 0x50000100#32 2 .a .waiting, { entry 2 0x40200008#32 1 .a .waiting with group := none }]

/-- Step 1: FLIP 0 is taken, with two entries to drain; TAKEN, epoch 6. -/
theorem test_flip : (after (.flip 0 0) cycle).groups[0] = group .draining .b 6 false 2 ∧
    (after (.flip 0 0) cycle).link.response.take 6 = [0x00#8, 0x02#8, 0x00#8, 0x00#8, 0x00#8, 0x06#8] := by
  decide +kernel

/-- An edge reaches every pin-driven group in ascending order: group 0 drains, the others are HELD at once. -/
theorem test_flip_edge : (after .flipEdge cycle).groups[0] = group .draining .b 6 false 2 ∧
    (after .flipEdge cycle).events.queue.map (fun r => r.report.group) = [some 1, some 2, some 3] := by
  decide +kernel

/-- Step 7: the last entry of bank A leaves, and FLIP_DONE names epoch 5 and bank A. -/
theorem test_drain_ends :
    let s := withOutstanding (withQueue (running (group .draining .b 6 false 1)) [entry 1 0x50000100#32 2 .a (.writing 0 10 true)])
      [(.mergeWrite 1, 0x50000100#32)]
    let t := after (.responseTaken (.write true) ⟨0, false⟩) s
    t.groups[0] = group .held .b 6 false 0 ∧ t.merge.queue = [] ∧
      t.events.queue.map EventRecord.report = [{ kind := .flipDone, group := some 0, epoch := some 5, bank := some .a }] := by
  decide +kernel

/-- Step 9: RELEASE appends the jobs of regions 0 and 2 for bank A; DONE, 2 jobs. -/
theorem test_release :
    let t := after (.release 0 0) (running (group .held .b 6 false 0))
    t.groups[0].state = .cleaning ∧ t.scrub.jobs.map (fun j => (j.region.val, j.bank)) = [(0, .a), (2, .a)] ∧
      t.link.response.take 3 = [0x00#8, 0x01#8, 0x02#8] := by
  decide +kernel

/-- Step 12: the last job completes with the flip pending: BANK_READY, then the flip with nothing to drain. -/
theorem test_bank_ready_then_flip :
    let s := { withOutstanding (running (group .cleaning .b 6 true 0))
        [(.scrubWrite (some { region := 2, bank := .a }), 0x500FFFF8#32)] with
      scrub := { engine := .issued, jobs := [job 2 .a 0x50000000#32 131072 131071] } }
    let t := after (.responseTaken (.write true) ⟨0, false⟩) s
    t.groups[0] = group .held .a 7 false 0 ∧
      t.events.queue.map EventRecord.report = [{ kind := .bankReady, group := some 0, bank := some .a },
        { kind := .flipDone, group := some 0, epoch := some 6, bank := some .b }] := by
  decide +kernel

theorem test_group_set : (after (.groupSet 3 0) ready).groups[3].pinDriven = false := by decide +kernel

/-- GROUP_READ of group 0: READY, bank A, epoch 5, no flip pending, drain count 0, pin-driven. -/
theorem test_group_read : (after (.groupRead 0 0) ready).link.response.take 10 =
    [0x00#8, 0x04#8, 0x01#8, 0x00#8, 0x00#8, 0x05#8, 0x00#8, 0x00#8, 0x01#8, 0x00#8] := by
  decide +kernel

/-! ### Lanes (Chapter 2) -/

/-- Region 4 of the example: 8-bit lanes, SAT_ADD, threshold 200, report ONCE. -/
def region4 : Region := { Region.reset with
  enabled := true, liveBase := 0x20000000#32, size := 1, bankABase := 0x60000000#32, operation := .satAdd, clampReport := .once
  threshold := some 200 }

/-- The region's state with no entry. -/
def lanes : State := { mapped with mode := .run, regions := map.set 4 region4 }

/-- The lanes of the three writes composed: 30, 220, 5, and 255 with its flag. -/
theorem test_composition :
    joinLanes .satAdd .w8 (joinLanes .satAdd .w8 (contributionLanes .w8 (word 0x0F#8 0xFA00640A#64))
      (contributionLanes .w8 (word 0x03#8 0x7814#64))) (contributionLanes .w8 (word 0x0C#8 0x0A050000#64)) =
    [some { value := 30, saturated := false }, some { value := 220, saturated := false }, some { value := 5, saturated := false },
      some { value := 255, saturated := true }, none, none, none, none] := by
  decide +kernel

/-- The entry of the example. -/
def composed : MergeEntry := { entry 0 0x60000000#32 4 .a .reading with
  group := none, epoch := none, width := .w8, count := 3
  lanes := [some { value := 30, saturated := false }, some { value := 220, saturated := false },
    some { value := 5, saturated := false }, some { value := 255, saturated := true }, none, none, none, none] }

/-- The read returns 07_07_07_07_00_C6_1E_32H: the write-back word, the four records in order, and the last clamp epoch 0. -/
theorem test_write_back :
    let t := after (.responseTaken (.read true 0x0707070700C61E32#64) ⟨0, false⟩)
      (withOutstanding (withQueue lanes [composed]) [(.mergeRead 0, 0x60000000#32)])
    t.merge.queue.map MergeEntry.state = [.writing 0x0707070700C61E32#64 0x07070707FFCBFA50#64 false] ∧
      t.events.queue.map (fun r => (r.report.kind, r.report.lane, r.report.value)) =
        [(.watch, some 1, some 250#64), (.watch, some 2, some 203#64), (.clamp, some 3, some 255#64),
          (.watch, some 3, some 255#64)] ∧ t.regions[4].lastClamp = some 0 := by
  decide +kernel

/-- The rows of the second example. -/
theorem test_endpoints : laneResult .wrapAdd .w8 100 180 = 24 ∧ laneCrosses .wrapAdd (some 200) 100 24 = false ∧
    laneResult .wrapAdd .w8 24 190 = 214 ∧ laneCrosses .wrapAdd (some 200) 24 214 = true ∧
    laneCrosses .replace (some 200) 230 20 = false ∧ laneCrosses .min (some 200) 230 150 = true ∧
    laneResult .bitClear .w8 0xFF 0x0F = 240 := by
  decide +kernel

/-! ### The merge queue (Chapter 3) -/

/-- Steps 1 and 2: W1 cannot join E1, which is READING, and is appended; W2 joins it. -/
theorem test_live_write_appends :
    let t := after (.hostRequest (some (request 1 0x10000040 (.write [word 0x0F#8 3])))) (withQueue ready
      [entry 0 0x40000040#32 0 .a .reading])
    t.merge.queue.map MergeEntry.stamp = [0, 9] ∧
      (after (.hostRequest (some (request 2 0x10000040 (.write [word 0xFF#8 0x0000000100000004#64])))) t).merge.queue.map
        (fun e => (e.lanes, e.count)) =
        [([some { value := 10, saturated := false }, none], 1),
          ([some { value := 7, saturated := false }, some { value := 1, saturated := false }], 2)] := by
  decide +kernel

/-- Step 3: the read is held behind both entries, each pinned. -/
theorem test_live_read_is_held :
    let t := after (.hostRequest (some (request 3 0x10000040 (.read 1)))) (withQueue ready
      [entry 0 0x40000040#32 0 .a .reading, entry 1 0x40000040#32 0 .a .waiting])
    t.merge.queue.map MergeEntry.pinned = [true, true] ∧ t.merge.hold.map HeldRead.blockers = [[0, 1]] := by
  decide +kernel

/-- A LIVE write stalled on a full queue (step 2 of the example of Chapter 4). -/
def stalled : State :=
  let s := withQueue ready ((List.range 16).map fun i => entry i (0x40000000#32 + BitVec.ofNat 32 (8 * i)) 0 .a .waiting)
  { s with host := { s.host with
      intake := .liveWrite { tag := 1, region := 2, offset := 0, words := List.replicate 4 full, position := 2 } true
      records := [openedRecord 1 .write .live 4 0] } }

theorem test_contribution_stalls : after .contribution stalled = stalled := by decide +kernel

/-- Step 6: the last word is taken, OK is sent, and the pending flip is taken with every entry of bank A to drain. -/
theorem test_last_contribution_takes_flip :
    let s := { stalled with
      merge := { stalled.merge with queue := stalled.merge.queue.take 15 }
      groups := stalled.groups.set 0 (group .ready .a 5 true 0)
      host := { stalled.host with
        intake := .liveWrite { tag := 1, region := 2, offset := 0, words := List.replicate 4 full, position := 3 } true } }
    let t := after .contribution s
    t.host.intake = .idle ∧ t.sent.host = [{ tag := 1, status := .ok, data := [] }] ∧ t.groups[0] = group .draining .b 6 false 16 := by
  decide +kernel

/-- A stalled read whose words no entry covers any more is taken direct. -/
theorem test_stalled_read_goes_direct :
    let s := { ready with host := { ready.host with
      intake := .liveRead { tag := 3, region := 0, offset := 0x40#32, length := 1 }, records := [openedRecord 3 .read .live 1 1] } }
    (after .stalledReadPresented s).port.offered = [{ tag := 3, index := 0, addr := 0x40000040#32, write := none }] := by
  decide +kernel

/-- QUEUE_PEEK beyond the entries present is answered EMPTY, and a position of 16 BAD_ARGUMENT. -/
theorem test_queue_peek : (after (.queuePeek 3 0) cycle).link.response.take 2 = [0x06#8, 0x00#8] ∧
    (after (.queuePeek 16 0) cycle).link.response.take 3 = [0x03#8, 0x01#8, 0x01#8] := by
  decide +kernel

/-! ### Host requests (Chapter 6) -/

/-- Step 2: the PLAIN write of tag 4, its second mask 00H. -/
def tag4 : HostRequest := request 4 0x20000000 (.write [full, word 0 0, full])

/-- Steps 2 and 3: the first word is offered; granted, the second is skipped and the third offered. -/
theorem test_plain_write_skips :
    let s := after (.hostRequest (some tag4)) ready
    s.port.offered.map (fun x => x.addr.toNat) = [0x20000000] ∧
      (after (.grant 0) s).port.offered.map (fun x => x.addr.toNat) = [0x20000010] := by
  decide +kernel

/-- Step 5: a duplicate tag is refused before the decode. -/
theorem test_duplicate_tag :
    let s := after (.hostRequest (some (request 3 0x20000000 (.read 2)))) ready
    let t := after (.hostRequest (some (request 3 0x10000040 (fullWords 1)))) s
    t.sent.host = [{ tag := 3, status := .refused, data := [] }] ∧
      t.events.queue.map EventRecord.report =
        [{ kind := .refused, cause := some .dupTag, address := some 0x10000040#32, value := some 3 }] := by
  decide +kernel

/-! ### The memory port (Chapter 7) -/

/-- The arbiter at the start of the example with a scrub share of 3. -/
def arbiter (starvation : Nat) (engine : EngineState) : State :=
  let s := withQueue ready [entry 0 0x40000100#32 0 .a (.writing 0 10 false), entry 1 0x40000200#32 0 .a .waiting]
  { s with
    scrub := { engine := engine, jobs := [job 1 .a 0x40200000#32 512 40] }
    port := { s.port with
      share := 3, starvation := starvation
      offered := (List.range 3).map fun i => { tag := 7, index := i, addr := wordAddr 0x20000000#32 i, write := none } } }

/-- Step 1: the merge write-back is granted and the count is 1. -/
theorem test_grant_write_back : (after (.grant 5) (arbiter 0 .offering)).sent.memory = [.write 0x40000100#32 0xFF#8 10] ∧
    (after (.grant 5) (arbiter 0 .offering)).port.starvation = 1 := by
  decide +kernel

/-- Step 3: at count 2 the scrub write of word 40 is granted, and the count is 0. -/
theorem test_grant_scrub : (after (.grant 5) (arbiter 2 .offering)).sent.memory = [.write 0x40200140#32 0xFF#8 0] ∧
    (after (.grant 5) (arbiter 2 .offering)).port.starvation = 0 ∧ (after (.grant 5) (arbiter 2 .offering)).scrub.engine = .issued := by
  decide +kernel

/-- The state of the second example of Chapter 7. -/
def timingOut : State :=
  let e2 := { entry 0 0x40200008#32 1 .a (.writing 0 10 true) with group := none }
  let s := withOutstanding (withQueue ready [e2, entry 1 0x40000100#32 0 .a .reading, entry 2 0x40000180#32 0 .a .waiting])
    [(.mergeRead 1, 0x40000100#32), (.passRead 9 0, 0x20000000#32), (.scrubWrite (some { region := 2, bank := .b }), 0x50100200#32),
      (.mergeWrite 0, 0x40200008#32)]
  { s with
    host := { s.host with records := [openedRecord 9 .read .plain 2 2] }
    port := { s.port with offered := [{ tag := 9, index := 1, addr := 0x20000008#32, write := none }] }
    scrub := { engine := .issued, jobs := [job 2 .b 0x50100000#32 131072 64] } }

/-- Step 1: the outcomes in order, the scrub cursor 65 with one failed word, and tag 9 answered FAULT with two zero words. -/
theorem test_response_timeout :
    let t := after .responseTimeout timingOut
    t.port.state = .failed ∧ brief t =
      [(0, .portFailed, some .timeout), (1, .memFault, some .timeout), (2, .memFault, some .portDown), (3, .memFault, some .portDown)] ∧
    t.scrub.engine = .paused ∧ t.scrub.jobs.map (fun j => (j.cursor, j.failed, j.firstFailed)) = [(65, 1, some 0x50100200#32)] ∧
    t.sent.host = [{ tag := 9, status := .fault, data := [0, 0] }] ∧ t.merge.queue = [] := by
  decide +kernel

/-- Step 3: an open LIVE write on a FAILED port is answered OK, and its entry's read fails at once. -/
theorem test_live_write_on_failed_port :
    let t := after (.hostRequest (some (request 1 0x10000200 (fullWords 1)))) { ready with port := { ready.port with state := .failed } }
    t.sent.host = [{ tag := 1, status := .ok, data := [] }] ∧ t.merge.queue = [] ∧ brief t = [(0, .memFault, some .portDown)] := by
  decide +kernel

/-- Both responses are there at 41, with deadlines of 40: the port stays UP. Without the second the request behind times out (R135). -/
theorem test_two_responses_at_one_moment :
    let s := withOutstanding ready [(.scrubWrite none, 0), (.scrubWrite none, 8)]
    (after (.responseTaken (.write true) ⟨41, true⟩) s).port.state = .up ∧
      (after (.responseTaken (.write true) ⟨41, false⟩) s).port.state = .failed := by
  decide +kernel

/-- Steps 4 and 6: PORT_RECOVER sends probe 1 once, and is then answered REFUSED_STATE with RECOVERING. -/
theorem test_port_recover :
    let t := after (.portRecover 100) { ready with port := { ready.port with state := .failed } }
    t.port.state = .recovering 132 ∧ t.sent.memory = [.probe 1] ∧
      (after (.portRecover 110) (after (.transferEnd []) t)).link.response.take 3 = [0x02#8, 0x01#8, 0x02#8] := by
  decide +kernel

/-- A RECOVERING port waiting for probe 1. -/
def recovering : State := { ready with port := { ready.port with state := .recovering 132, probeNumber := 1 } }

/-- Step 7: the answer to probe 1 brings the port UP; another number is discarded. -/
theorem test_probe_answered : (after (.probeAnswered 1) recovering).port.state = .up ∧ after (.probeAnswered 2) recovering = recovering := by
  decide +kernel

/-- The end of Chapter 7: a probe that times out fails the waiting read word. -/
theorem test_probe_timeout :
    let s := { recovering with
      host := { recovering.host with records := [openedRecord 5 .read .plain 1 1] }
      port := { recovering.port with offered := [{ tag := 5, index := 0, addr := 0x20000040#32, write := none }] } }
    (after .probeTimeout s).sent.host = [{ tag := 5, status := .fault, data := [0] }] ∧
      brief (after .probeTimeout s) = [(0, .portFailed, some .probe)] := by
  decide +kernel

/-- A share of 1 is refused for parameter 2. -/
theorem test_port_set : (after (.portSet 255 16) ready).port.timeout = 255 ∧
    (after (.portSet 255 1) ready).link.response.take 4 = [0x03#8, 0x01#8, 0x02#8, 0x00#8] := by
  decide +kernel

/-- The second example of Chapter 11: a port failure during a drain. -/
def failing11 : State :=
  let s := withOutstanding (withQueue (running (group .draining .b 12 false 2))
    [entry 0 0x40000200#32 0 .a (.writing 0 10 true), entry 1 0x50000400#32 2 .a .waiting,
      { entry 2 0x40100008#32 0 .b .reading with pinned := true }])
    [(.mergeWrite 0, 0x40000200#32), (.mergeRead 2, 0x40100008#32)]
  { s with
    events := { s.events with serial := 50 }
    host := { s.host with records := [openedRecord 7 .read .live 1 1] }
    merge := { s.merge with hold := [{
      stamp := 3, tag := 7, first := 0x40100008#32, length := 1, blockers := [2], state := .blocked, issued := 0 }] } }

/-- Step 1: records 50 to 54, group 0 HELD, the queue and the hold list empty, and tag 7 answered FAULT with a zero word. -/
theorem test_failure_during_drain :
    let t := after .responseTimeout failing11
    brief t = [(50, .portFailed, some .timeout), (51, .memFault, some .timeout), (52, .memFault, some .portDown),
      (53, .memFault, some .portDown), (54, .flipDone, none)] ∧
    t.events.queue.map (fun r => r.report.address) =
      [some 0x40000200#32, some 0x40000200#32, some 0x40100008#32, some 0x50000400#32, none] ∧
    t.groups[0] = group .held .b 12 false 0 ∧ t.merge.queue = [] ∧ t.merge.hold = [] ∧
    t.sent.host = [{ tag := 7, status := .fault, data := [0] }] := by
  decide +kernel

/-- SCRUB_STATUS of the example of Chapter 5: PAUSED, 2 jobs, region 0 bank A, cursor 301, one failed word at 4000_0960H. -/
theorem test_scrub_status :
    let s := { ready with scrub := { engine := .paused, jobs := [
      { job 0 .a 0x40000000#32 8192 301 with failed := 1, firstFailed := some 0x40000960#32 }, job 2 .a 0x50000000#32 131072 0] } }
    (after .scrubStatus s).link.response.take 24 =
      [0x00#8, 0x0B#8, 0x03#8, 0x02#8, 0x03#8, 0x00#8, 0x00#8, 0x00#8, 0x00#8, 0x00#8, 0x01#8, 0x2D#8, 0x00#8, 0x00#8, 0x20#8,
        0x00#8, 0x00#8, 0x00#8, 0x00#8, 0x01#8, 0x40#8, 0x00#8, 0x09#8, 0x60#8] := by
  decide +kernel

/-! ### Events (Chapter 8) -/

/-- The example of Chapter 8 after step 1: 32 records, serials 100 to 131, the loss mark set; CLAMP and WATCH masked. -/
def overflowed : State := { ready with events := {
  queue := (List.range 32).map fun i => {
    serial := BitVec.ofNat 16 (100 + i), lossBefore := false
    report := { kind := if i < 30 then .watch else if i = 30 then .portFailed else .memFault } }
  serial := 132, loss := true, mask := 0x0006#16, attn := true } }

/-- Step 2: the take returns WATCH 100 with 31 left, and ATTN stays asserted. -/
theorem test_event_take : (after .eventTake overflowed).events.queue.length = 31 ∧ (after .eventTake overflowed).events.attn = true ∧
    ((after .eventTake overflowed).link.response.drop 5).take 2 = [0x00#8, 0x64#8] := by
  decide +kernel

/-- Steps 3 and 4: WATCH is stored as 132 with loss-before; CLAMP finds no place and sets the mark again. -/
theorem test_raise_after_loss :
    let b := (after .eventTake overflowed).events.raise { kind := .watch }
    b.queue.getLast? = some { serial := 132, lossBefore := true, report := { kind := .watch } } ∧ b.loss = false ∧
      (b.raise { kind := .clamp }).loss = true ∧ (b.raise { kind := .clamp }).serial = 133 := by
  decide +kernel

/-- With every kind masked ATTN falls; bits 12 to 15 of the mask are ignored. -/
theorem test_attn_mask_set : (after (.attnMaskSet 0xFF 0xFF) overflowed).events.attn = false ∧
    (after (.attnMaskSet 0xFF 0xFF) overflowed).events.mask = 0x0FFF#16 := by
  decide +kernel

theorem test_attn_mask_read : (after .attnMaskRead overflowed).link.response.take 4 = [0x00#8, 0x01#8, 0x00#8, 0x06#8] := by
  decide +kernel

/-! ### Witnesses: for each statement with hypotheses, states and operands that meet them, each clause at a boundary of its range -/

theorem exec_grant_after (now : Nat) (s : State) : exec (.grant now) s = .next (after (.grant now) s) := rfl

theorem exec_responseTimeout_after (s : State) : exec .responseTimeout s = .next (after .responseTimeout s) := rfl

/-- Between transfers the link takes every frame. -/
theorem listens {s : State} (hr : s.resetAsserted = false) (hl : s.link.selected = false) (c : Instr) : Listens s c :=
  ⟨hr, by simp only [Link.takes, hl, Bool.not_false, Bool.true_or]⟩

theorem witness_StepRunsFrontCommand : State.reset.pending = [] ∧ State.reset.pins = [] := ⟨rfl, rfl⟩

theorem no_writeBack {queue : List MergeEntry} (h : queue.all (fun e => !e.offersWriteBack) = true) :
    ∀ e ∈ queue, ¬OffersWriteBack e := by
  intro e he ho
  have := List.all_eq_true.1 h e he
  rw [(MergeEntry.offersWriteBack_iff e).2 ho] at this
  cases this

/-- An IDLE intake; an incomplete frame and one that passes the checks; a FAILED port, 8 requests outstanding, nothing offered, and an
engine OFFERING with no job. -/
theorem witness_EveryCommandAnswersNext :
    ((∀ w stalled, ready.host.intake ≠ .liveWrite w stalled) ∧ ∀ r, ready.host.intake ≠ .liveRead r) ∧
    (frameComplete [0x01#8, 0x00#8] = false ∧ frameRefused [0x01#8, 0x00#8, 0x15#8] = false) ∧
    ({ ready.port with state := .failed }.state ≠ .up ∧ (8 : Nat) ≤ (List.replicate 8 (0 : Nat)).length) ∧
    (NothingOffered ready ∧ ¬(ready.scrub.engine = .offering ∧ ready.scrub.jobs ≠ [])) ∧
    ∀ s, s = { ready with scrub := { engine := .offering, jobs := [] } } →
      NothingOffered s ∧ ¬(s.scrub.engine = .offering ∧ s.scrub.jobs ≠ []) :=
  ⟨⟨fun _ _ h => (nomatch h), fun _ h => (nomatch h)⟩, by decide +kernel, ⟨fun h => (nomatch h), by decide⟩,
    ⟨⟨rfl, fun _ h => nomatch h⟩, fun h => nomatch h.1⟩, by rintro s rfl; exact ⟨⟨rfl, fun _ h => nomatch h⟩, fun h => h.2 rfl⟩⟩

/-- A command of the first part; and a bit with MSEL high, as the first of a byte, and as the eighth in each case. -/
theorem witness_OnlyGrantAndProbeReachMemory :
    (exec .status State.reset = .next (after .status State.reset) ∧
      (∀ now, Instr.status ≠ .grant now) ∧ (∀ now, Instr.status ≠ .portRecover now) ∧ Instr.status ≠ .reset) ∧
    (∀ l value, (clocking l value).pending = [] ∧ (clocking l value).pins = .bit value 5 :: []) ∧
    (Link.between.selected = false ∧ Link.opened.selected = true ∧ Link.opened.bits.length < 7) ∧
    (∀ reception, (seven reception [] 1).selected = true ∧ (seven reception [] 1).bits.length = 7 ∧
      (seven reception [] 1).reception = reception) ∧
    (resetHeld.resetAsserted = true ∧ ready.resetAsserted = false) ∧
    (frameComplete [0x01#8, 0x00#8, 0x15#8] = true ∧ frameComplete [] = false ∧ frameComplete [0x01#8, 0x00#8] = false ∧
      frameComplete ([] ++ [byteOf ((seven .taking [] 1).bits ++ [true])]) = false) ∧
    ((frameParts .status).isSome = true ∧ (∀ m, Instr.status = .portRecover m → m = 5) ∧
      [0x01#8, 0x00#8] ++ [byteOf ((seven .taking [0x01#8, 0x00#8] 0x15#8).bits ++ [true])] = frameOf .status) ∧
    (frameComplete [0x01#8, 0x00#8, 0x16#8] = true ∧ frameRefused [0x01#8, 0x00#8, 0x16#8] = true ∧
      [0x01#8, 0x00#8] ++ [byteOf ((seven .taking [0x01#8, 0x00#8] 0x16#8).bits ++ [false])] = [0x01#8, 0x00#8, 0x16#8]) :=
  ⟨⟨rfl, fun _ h => (nomatch h), fun _ h => (nomatch h), fun h => (nomatch h)⟩, fun _ _ => ⟨rfl, rfl⟩, by decide +kernel,
    fun _ => ⟨rfl, rfl, rfl⟩, by decide +kernel, by decide +kernel, ⟨rfl, (by intro m h; cases h), by decide +kernel⟩,
    by decide +kernel⟩

/-- RESET falls in the middle of a transfer, and rises; and a command while it is low. -/
theorem witness_ResetSetsEveryBlock :
    let s := { ready with pins := [.assertReset], link := seven .taking [] 1 }
    let t := { resetHeld with pins := [.releaseReset], link := seven .taking [] 1 }
    (s.pending = [] ∧ s.pins = .assertReset :: [] ∧ s.resetAsserted = false) ∧
    (t.pending = [] ∧ t.pins = .releaseReset :: [] ∧ t.resetAsserted = true) ∧
    ({ s with pins := [.releaseReset] }.pins = .releaseReset :: [] ∧ { t with pins := [.assertReset] }.pins = .assertReset :: []) ∧
    (Instr.flipEdge ≠ .reset ∧ ∀ bytes, Instr.flipEdge ≠ .transferEnd bytes) :=
  ⟨⟨rfl, rfl, rfl⟩, ⟨rfl, rfl, rfl⟩, ⟨rfl, rfl⟩, by decide +kernel, by intro _ h; cases h⟩

/-- A STATUS frame with a wrong CRC; 30 pairs for STATUS; a length byte of 31; a second frame, and a second frame with a wrong CRC; a
transfer that RESET abandoned; and both edges of MSEL. -/
theorem witness_LinkEventsExecuteNothing :
    (State.reset.resetAsserted = false ∧ State.reset.link.selected = false ∧
      State.reset.link.takes [0x01#8, 0x00#8, 0x16#8] = true) ∧
    (([] : List Byte).length = 2 * (0#8).toNat ∧ (0#8).toNat ≤ 30 ∧ 0x16#8 ≠ crc8 [0x01#8, 0#8]) ∧
    ((List.replicate 60 0#8).length = 2 * (30#8).toNat ∧ (30#8).toNat ≤ 30 ∧ fixedPairs 0x01#8 ≠ some (30#8).toNat) ∧
    30 < (31#8).toNat ∧
    ((frameParts .eventTake).isSome = true ∧ (after .status State.reset).link.takes (frameOf .eventTake) = false ∧
      (after .status State.reset).link.selected = true ∧ (after .status State.reset).link.reception = .taking ∧
      frameComplete (after .status State.reset).link.receiver = true) ∧
    (frameComplete [0x01#8, 0x00#8, 0x16#8] = true ∧ frameRefused [0x01#8, 0x00#8, 0x16#8] = true ∧
      (after .status State.reset).resetAsserted = false ∧
      (after .status State.reset).link.takes [0x01#8, 0x00#8, 0x16#8] = false) ∧
    ((after .reset (after .status State.reset)).link.selected = true ∧
      (after .reset (after .status State.reset)).link.reception = .abandoned) ∧
    (resetHeld.resetAsserted = true ∧ { resetHeld with pins := [.select] }.pins = .select :: [] ∧
      { resetHeld with pins := [.deselect] }.pins = .deselect :: []) := by
  decide +kernel

/-- PORT_RECOVER with the moment 7, REGION_WRITE, eight bits, and a length byte of 31. -/
theorem witness_FrameRoundTrip : (List.replicate 8 true).length = 8 ∧ (∃ code params, frameParts .status = some (code, params)) ∧
    30 < (31#8).toNat ∧
    ((frameParts (.portRecover 7)).isSome = true ∧ ∀ m, Instr.portRecover 7 = .portRecover m → m = 7) ∧
    ((frameParts (.regionWrite (Vector.replicate 44 9))).isSome = true ∧
      ∀ m, Instr.regionWrite (Vector.replicate 44 9) = .portRecover m → m = 7) :=
  ⟨rfl, ⟨_, _, rfl⟩, by decide, ⟨rfl, by intro m h; cases h; rfl⟩, rfl, by intro m h; cases h⟩

/-- Regions 0 and 15, index 16; groups 0 and 3, index 4; no job and one; positions 16, 3 of 3 entries, 15 of none, and 2 of 3. -/
theorem witness_ReadsChangeNothing : (∀ c, Listens cycle c) ∧
    ((0#8).toNat = (0 : RegionIx).val ∧ (15#8).toNat = (15 : RegionIx).val ∧ 15 < (16#8).toNat) ∧
    ((0#8).toNat = (0 : GroupIx).val ∧ (3#8).toNat = (3 : GroupIx).val ∧ 3 < (4#8).toNat) ∧
    (State.reset.scrub.jobs = [] ∧ drainAndClean.scrub.jobs ≠ []) ∧
    ((3#8).toNat ≤ 15 ∧ cycle.merge.queue.length ≤ (3#8).toNat) ∧
    ((15#8).toNat ≤ 15 ∧ State.reset.merge.queue.length ≤ (15#8).toNat) ∧
    ((2#8).toNat ≤ 15 ∧ cycle.merge.queue[(2#8).toNat]? = some { entry 2 0x40200008#32 1 .a .waiting with group := none }) :=
  ⟨listens rfl rfl, by decide +kernel⟩

theorem witness_RefusedCommandsChangeNothing : (∀ c, Listens ready c) ∧ (∀ c, Listens State.reset c) ∧
    ready.mode ≠ .bypass ∧ (State.reset.mode = .bypass ∧ 15 < (Vector.replicate 44 16#8)[0].toNat) ∧
    ((0#8).toNat ≠ 1 ∧ (0#8).toNat ≠ 2) ∧ ((3#8).toNat ≠ 1 ∧ (3#8).toNat ≠ 2) ∧ ((2#8).toNat = 1 ∨ (2#8).toNat = 2) ∧
    (State.reset.mode = .bypass ∨ State.reset.mode = .stopping) ∧ 3 < (4#8).toNat ∧ ((3#8).toNat ≤ 3 ∧ State.reset.mode ≠ .run) ∧
    ((0#8).toNat = (0 : GroupIx).val ∧ ready.mode = .run ∧ ready.groups[(0 : GroupIx)].state ≠ .held) :=
  ⟨listens rfl rfl, listens rfl rfl, by decide +kernel⟩

/-- Bytes 0 to 41 of region 0 by the table of R180. -/
def bytes0 : Vector Byte 42 :=
  #v[0x01#8, 0x01#8, 0x01#8, 0x02#8, 0x00#8, 0x00#8, 0x03#8, 0x00#8, 0x00#8, 0x10#8, 0x10#8, 0x00#8, 0x00#8, 0x00#8, 0x11#8, 0x00#8,
    0x00#8, 0x00#8, 0x40#8, 0x00#8, 0x00#8, 0x00#8, 0x40#8, 0x10#8, 0x00#8, 0x00#8, 0#8, 0#8, 0#8, 0#8, 0#8, 0#8, 0#8, 0#8, 0#8, 0#8,
    0#8, 0#8, 0#8, 0#8, 0#8, 0#8]

theorem region0_storable (size : Nat) (h : 1 ≤ size ∧ size ≤ 4096) : Storable { region0 with size := size } := by
  refine ⟨h.1, h.2, (by decide +kernel : region0.liveBase.toNat % 4096 = 0), (by decide +kernel : region0.bankABase.toNat % 4096 = 0),
    ?_, ?_, ⟨fun hx => (nomatch hx), fun hx => (nomatch hx)⟩⟩
  · intro a ha
    cases ha
    rfl
  · intro a ha
    cases ha
    rfl

/-- Region 0 at index 0, and with 4096 granules at index 15. -/
theorem witness_RegionWriteStoresRecord : (∀ c, Listens mapped c) ∧
    (mapped.mode = .bypass ∧ Storable region0 ∧ (#v[0x00#8, 0x00#8] ++ bytes0).toList = [0x00#8, 0x00#8] ++ (regionBytes region0).take 42) ∧
    (Storable { region0 with size := 4096 } ∧
      (#v[0x0F#8, 0x00#8] ++ (bytes0.set 8 0x10).set 9 0).toList = [0x0F#8, 0x00#8] ++ (regionBytes { region0 with size := 4096 }).take 42) :=
  ⟨listens rfl rfl, ⟨rfl, region0_storable 16 (by decide), by decide +kernel⟩, region0_storable 4096 (by decide), by decide +kernel⟩

/-- Zero bytes fail at field 3, with fields 1 and 2 passing; code 3 fails at field 12; the layout of region 0 fails nowhere, and the
same with bytes 7 and 26 and the presence bits 4 to 7 not 0, which gives the same record. -/
theorem witness_RegionWriteReportsFirstFailure :
    (∀ c, Listens State.reset c) ∧ (State.reset.mode = .bypass ∧ (15#8).toNat ≤ 15) ∧
    (fieldFails (Vector.replicate 42 0) 3 ∧ ∀ j, 1 ≤ j → j < 3 → ¬fieldFails (Vector.replicate 42 0) j) ∧
    (fieldFails (bytes0.set 5 3) 12 ∧ ∀ j, 1 ≤ j → j < 12 → ¬fieldFails (bytes0.set 5 3) j) ∧
    (∀ k, ¬fieldFails bytes0 k) ∧ (∀ k, ¬fieldFails (((bytes0.set 6 0xF3).set 7 9).set 26 9) k) ∧
    LayoutGives bytes0 region0 ∧ LayoutGives (((bytes0.set 6 0xF3).set 7 9).set 26 9) region0 := by
  refine ⟨listens rfl rfl, by decide, ⟨by simp only [fieldFails]; decide +kernel, ?_⟩, ⟨by simp only [fieldFails]; decide +kernel, ?_⟩, ?_,
    ?_, by unfold LayoutGives; decide +kernel, by unfold LayoutGives; decide +kernel⟩
  · intro j h1 h2
    interval_cases j <;> (simp only [fieldFails]; decide +kernel)
  · intro j h1 h2
    interval_cases j <;> (simp only [fieldFails]; decide +kernel)
  · intro k hk
    obtain ⟨h1, h2⟩ := fieldFails_numbered hk
    revert hk
    interval_cases k <;> (simp only [fieldFails]; decide +kernel)
  · intro k hk
    obtain ⟨h1, h2⟩ := fieldFails_numbered hk
    revert hk
    interval_cases k <;> (simp only [fieldFails]; decide +kernel)

/-- One range ends before the other starts. -/
abbrev apart (r q : Region) (x y : Addr) : Prop := x.toNat + r.size * 4096 ≤ y.toNat ∨ y.toNat + q.size * 4096 ≤ x.toNat

theorem apart_disjoint {r q : Region} {x y : Addr} (h : apart r q x y) (b : Nat) : ¬(InRange r x b ∧ InRange q y b) := by
  unfold apart at h
  unfold InRange
  omega

theorem map_consistent : Consistent map := by
  have h1 : ∀ ix : RegionIx, map[ix].enabled = true →
      (map[ix].group.isSome = map[ix].snapBase.isSome ∧ map[ix].group.isSome = map[ix].bankBBase.isSome) ∧
      (namedBases map[ix]).all (fun base => base.toNat + map[ix].size * 4096 ≤ 2 ^ 32) = true ∧
      map[ix].threshold = none ∧ ¬(map[ix].operation = .satSub ∧ map[ix].pattern = .identity) ∧
      (namedBases map[ix]).Pairwise (fun x y => x.toNat + map[ix].size * 4096 ≤ y.toNat ∨ y.toNat + map[ix].size * 4096 ≤ x.toNat) ∧
      ∀ other : RegionIx, other ≠ ix → map[other].enabled = true →
        (namedBases map[ix]).all (fun x => (namedBases map[other]).all fun y =>
          x.toNat + map[ix].size * 4096 ≤ y.toNat ∨ y.toNat + map[other].size * 4096 ≤ x.toNat) = true := by
    decide +kernel
  intro ix he
  obtain ⟨g, w, t, p, o, a⟩ := h1 ix he
  refine ⟨g, fun x hx => of_decide_eq_true (List.all_eq_true.1 w x hx), ?_, p, o.imp fun h b => apart_disjoint h b, ?_⟩
  · rw [t]
    intro x hx
    cases hx
  · intro other hne heo x hx y hy
    exact apart_disjoint (of_decide_eq_true (List.all_eq_true.1 (List.all_eq_true.1 (a other hne heo) x hx) y hy))

/-- First and last bytes of live view, snapshot view and bank, and a word in no range. -/
theorem witness_WordClassFollowsRanges : Consistent map ∧
    (map[(0 : RegionIx)].enabled = true ∧ InRange map[(0 : RegionIx)] map[(0 : RegionIx)].liveBase (0x10000000#32).toNat ∧
      InRange map[(0 : RegionIx)] map[(0 : RegionIx)].liveBase (0x1000FFFF#32).toNat) ∧
    (0x11000000#32 ∈ map[(0 : RegionIx)].snapBase ∧ InRange map[(0 : RegionIx)] 0x11000000#32 (0x1100FFFF#32).toNat) ∧
    (0x40100000#32 ∈ map[(0 : RegionIx)].bankABase :: map[(0 : RegionIx)].bankBBase.toList ∧
      InRange map[(0 : RegionIx)] 0x40100000#32 (0x40100000#32).toNat) ∧
    ∀ ix : RegionIx, map[ix].enabled = true → ∀ base ∈ namedBases map[ix], ¬InRange map[ix] base (0x40010000#32).toNat := by
  refine ⟨map_consistent, by unfold InRange; decide +kernel, ⟨rfl, by unfold InRange; decide +kernel⟩,
    ⟨by decide +kernel, by unfold InRange; decide +kernel⟩, ?_⟩
  have h : ∀ ix : RegionIx, map[ix].enabled = true →
      (namedBases map[ix]).all (fun base => ¬(base.toNat ≤ (0x40010000#32).toNat ∧ (0x40010000#32).toNat < base.toNat + map[ix].size * 4096)) =
        true := by
    decide +kernel
  exact fun ix he base hb hin => of_decide_eq_true (List.all_eq_true.1 (h ix he) base hb) hin

/-- Lengths 0 and 17, a transfer past the end; one that ends at it; mixed words; each class; a half-covered lane and a whole one. -/
theorem witness_DecodeVerdict :
    ((0 : Fin 32).val = 0 ∧ 16 < (17 : Fin 32).val ∧ 2 ^ 32 < (0xFFFFFFF8#32).toNat + 8 * 2) ∧
    (1 ≤ (1 : Fin 32).val ∧ (0xFFFFFFF8#32).toNat + 8 * 1 ≤ 2 ^ 32 ∧ (16 : Fin 32).val ≤ 16) ∧
    (Mode.stopping ≠ .bypass ∧ ∃ i, i < 2 ∧ classifyWord map (0x1000FFF8#32 + BitVec.ofNat 32 (8 * i)) ≠ classifyWord map 0x1000FFF8#32) ∧
    ((∀ i, i < 16 → classifyWord map (0x11000000#32 + BitVec.ofNat 32 (8 * i)) = classifyWord map 0x11000000#32) ∧
      classifyWord map 0x11000000#32 = .snap 0 ∧ map[(0 : RegionIx)].snapBase = some 0x11000000#32) ∧
    (classifyWord map 0x20000000#32 = .plain ∧ classifyWord map 0x40100008#32 = .aliasBank 0) ∧
    (classifyWord map 0x10010010#32 = .live 1 ∧ (word 0x01#8 0).mask ≠ 0 ∧
      LanePartial map[(1 : RegionIx)].width (word 0x01#8 0).mask 0) ∧
    ¬∃ k, LanePartial map[(1 : RegionIx)].width (word 0x03#8 0).mask k := by
  refine ⟨by decide +kernel, by decide +kernel, ⟨by decide +kernel, 1, by decide +kernel⟩, by decide +kernel, by decide +kernel,
    ⟨by decide +kernel, by decide +kernel, (lanePartial_iff _ _ _).1 (by decide +kernel)⟩, ?_⟩
  rw [← maskPartial_iff]
  decide +kernel

/-- Region 1 overlaps another region and fails no earlier check, and region 0 fails none. -/
theorem witness_ArmFailedChangesNothing :
    let s := { State.reset with regions := failing 0x60001000#32 300 }
    (∀ c, Listens s c) ∧ s.mode = .bypass ∧ ((2#8) = 1 ∨ (2#8) = 2) ∧ s.regions[(1 : RegionIx)].enabled = true ∧
      CheckFails s.regions 1 .overlap ∧
      (∀ earlier : ArmReason, earlier.code.toNat < ArmReason.overlap.code.toNat → ¬CheckFails s.regions 1 earlier) ∧
      ∀ j : RegionIx, j < 1 → s.regions[j].enabled = true → ∀ other, ¬CheckFails s.regions j other := by
  have h0 : checkRegion (failing 0x60001000#32 300) 0 = none := by decide +kernel
  have h1 : (failing 0x60001000#32 300)[(1 : RegionIx)].groupFieldsFail = false ∧
      (failing 0x60001000#32 300)[(1 : RegionIx)].wrapFails = false ∧
      (failing 0x60001000#32 300)[(1 : RegionIx)].thresholdFails = false ∧
      (failing 0x60001000#32 300)[(1 : RegionIx)].patternFails = false := by
    decide +kernel
  refine ⟨listens rfl rfl, rfl, by decide, by decide +kernel, (overlapFails_iff _ _).1 (by decide +kernel), ?_, ?_⟩
  · intro earlier h hf
    cases earlier
    · exact Bool.eq_false_iff.1 h1.1 ((Region.groupFieldsFail_iff _ _).2 hf)
    · exact Bool.eq_false_iff.1 h1.2.1 ((Region.wrapFails_iff _ _).2 hf)
    · exact Bool.eq_false_iff.1 h1.2.2.1 ((Region.thresholdFails_iff _ _).2 hf)
    · exact Bool.eq_false_iff.1 h1.2.2.2 ((Region.patternFails_iff _ _).2 hf)
    · exact absurd h (by decide)
  · intro j hj he other
    obtain rfl : j = 0 := Fin.ext (by have : j.val < 1 := hj; omega)
    exact not_checkFails_of_none he h0 other

/-- The map with nothing in flight, and with a word of a PLAIN write offered outside the banks. -/
theorem witness_ArmKeepEntersRun :
    let write : PlainWrite := { tag := 1, start := 0x20000000#32, words := [full], position := 0 }
    let s := { mapped with host := { mapped.host with intake := .plainWrite write } }
    (∀ c, Listens s c) ∧ s.mode = .bypass ∧ validate s.regions = none ∧ s.scrub.jobs = [] ∧
      (∀ w, s.host.intake = .plainWrite w → inAnyBank s.regions (w.start + BitVec.ofNat 32 (8 * w.position)) = false) ∧
      ∀ w, mapped.host.intake = .plainWrite w → inAnyBank mapped.regions (w.start + BitVec.ofNat 32 (8 * w.position)) = false := by
  refine ⟨listens rfl rfl, rfl, by decide +kernel, rfl, ?_, ?_⟩
  · intro w h
    cases h
    decide +kernel
  · intro w h
    cases h

/-- With the map, and with no enabled region. -/
theorem witness_ArmScrubAllEntersStarting : ((∀ c, Listens mapped c) ∧ mapped.mode = .bypass ∧ validate mapped.regions = none ∧
      mapped.scrub = { engine := .idle, jobs := [] } ∧ (∃ ix : RegionIx, mapped.regions[ix].enabled = true) ∧
      ∀ w, mapped.host.intake = .plainWrite w → inAnyBank mapped.regions (w.start + BitVec.ofNat 32 (8 * w.position)) = false) ∧
    ((∀ c, Listens State.reset c) ∧ State.reset.mode = .bypass ∧ validate State.reset.regions = none ∧
      State.reset.scrub = { engine := .idle, jobs := [] } ∧ (∀ ix : RegionIx, State.reset.regions[ix].enabled = false) ∧
      ∀ w, State.reset.host.intake = .plainWrite w → inAnyBank State.reset.regions (w.start + BitVec.ofNat 32 (8 * w.position)) = false) :=
  ⟨⟨listens rfl rfl, rfl, by decide +kernel, rfl, ⟨0, rfl⟩, by intro w h; cases h⟩,
    listens rfl rfl, rfl, by decide +kernel, rfl, by decide +kernel, by intro w h; cases h⟩

/-- Region 2, BIT_SET, with a bank B; a region with MIN and the highest lane; and one with a preset word. -/
theorem witness_StartupJobsCoverBanks :
    (region2.pattern = .identity ∧ 0 < LaneWidth.w64.lanes ∧ region2.operation = .bitSet ∧ region2.bankBBase = some 0x50100000#32) ∧
    ({ region2 with operation := .min }.pattern = .identity ∧ 7 < LaneWidth.w8.lanes) ∧
    ({ region2 with pattern := .preset, preset := some 9 }.pattern = .preset ∧
      { region2 with pattern := .preset, preset := some 9 }.preset = some 9#64) := by
  decide +kernel

/-- A PLAIN write taken in BYPASS whose first word, in bank A of region 0, stands offered; and one whose first word, below that bank,
is granted and not answered, and granted and answered, with its second word offered. -/
theorem witness_ArmWithholdsOfferedWord :
    let s := after (.hostRequest (some (request 1 0x40000000 (fullWords 2)))) mapped
    let w : PlainWrite := { tag := 1, start := 0x40000000#32, words := [full, full], position := 0 }
    let p := after (.grant 0) (after (.hostRequest (some (request 1 0x3FFFFFF8 (fullWords 2)))) mapped)
    let q := after (.responseTaken (.write true) ⟨1, false⟩) p
    let v : PlainWrite := { tag := 1, start := 0x3FFFFFF8#32, words := [full, full], position := 1 }
    let r := openedRecord 1 .write .plain 2 2
    ((∀ c, Listens s c) ∧ (∀ c, Listens p c) ∧ ∀ c, Listens q c) ∧
    (s.mode = .bypass ∧ validate s.regions = none ∧ s.scrub = { engine := .idle, jobs := [] } ∧ s.host.intake = .plainWrite w ∧
      inAnyBank s.regions (w.start + BitVec.ofNat 32 (8 * w.position)) = true ∧ HasRecord s 1 r ∧
      (w.words.take w.position).countP (fun y => y.mask ≠ 0) = r.completed) ∧
    (p.mode = .bypass ∧ validate p.regions = none ∧ p.scrub = { engine := .idle, jobs := [] } ∧ p.host.intake = .plainWrite v ∧
      inAnyBank p.regions (v.start + BitVec.ofNat 32 (8 * v.position)) = true ∧ HasRecord p 1 r ∧
      (v.words.take v.position).countP (fun y => y.mask ≠ 0) = 1 ∧ r.completed < 1) ∧
    (q.mode = .bypass ∧ q.host.intake = .plainWrite v ∧ HasRecord q 1 { r with completed := 1 }) := by
  simp only [← State.record?_eq_some_iff]
  exact ⟨⟨listens (by decide +kernel) (by decide +kernel), listens (by decide +kernel) (by decide +kernel),
    listens (by decide +kernel) (by decide +kernel)⟩, by decide +kernel⟩

/-- STARTING; RUN with the merge path not empty; RUN with it empty; and STOPPING with each. -/
theorem witness_DisarmLeavesRun :
    ((∀ c, Listens (after (.transferEnd []) (after (.arm 1 0) mapped)) c) ∧
      (after (.transferEnd []) (after (.arm 1 0) mapped)).mode = .starting) ∧ (∀ c, Listens drainAndClean c) ∧ (∀ c, Listens ready c) ∧
    (drainAndClean.mode = .run ∧ ¬RunDown drainAndClean) ∧ (ready.mode = .run ∧ RunDown ready) ∧
    ({ ready with mode := .stopping }.mode = .stopping ∧ RunDown { ready with mode := .stopping } ∧
      ¬({ drainAndClean with mode := .stopping }.mode = .stopping ∧ RunDown { drainAndClean with mode := .stopping })) := by
  simp only [← State.rundownDone_iff]
  exact ⟨⟨listens (by decide +kernel) (by decide +kernel), by decide +kernel⟩, listens rfl rfl, listens rfl rfl, by decide +kernel⟩

theorem witness_GroupSetSetsPinDriven : (∀ c, Listens ready c) ∧
    ((3#8).toNat = (3 : GroupIx).val ∧ (1#8).toNat ≤ 1) ∧ 3 < (4#8).toNat ∧ ((3#8).toNat ≤ 3 ∧ 1 < (2#8).toNat) :=
  ⟨listens rfl rfl, by decide +kernel⟩

theorem not_partWay_of_idle {s : State} {g : GroupIx} (h : s.host.intake = .idle) : ¬PartWay s g := by
  rintro ⟨w, stalled, hw, -⟩
  rw [h] at hw
  cases hw

/-- With two entries to drain, and with none. -/
theorem witness_FlipTakenAtCutPoint : (∀ c, Listens cycle c) ∧ (∀ c, Listens ready c) ∧ (cycle.mode = .run ∧ AtCutPoint cycle 0 ∧ drainOnFlip cycle 0 = 2) ∧
    (ready.mode = .run ∧ AtCutPoint ready 3 ∧ drainOnFlip ready 3 = 0) :=
  ⟨listens rfl rfl, listens rfl rfl, ⟨rfl, ⟨rfl, rfl, not_partWay_of_idle rfl⟩, by decide +kernel⟩, rfl, ⟨rfl, rfl, not_partWay_of_idle rfl⟩, by decide +kernel⟩

/-- READY and pending; READY and part-way; CLEANING; DRAINING; HELD; group 3 outside RUN; index 4. -/
theorem witness_FlipPendingOrRefused :
    (∀ g c, Listens (running g) c) ∧ (∀ c, Listens stalled c) ∧
    WaitsForFlip (running (group .ready .a 5 true 0)) 0 ∧ WaitsForFlip stalled 0 ∧
    WaitsForFlip (running (group .cleaning .a 5 false 0)) 0 ∧ (running (group .ready .a 5 true 0)).mode = .run ∧
    (running (group .draining .a 5 false 1)).groups[(0 : GroupIx)].state = .draining ∧
    (running (group .held .a 5 false 0)).groups[(0 : GroupIx)].state = .held ∧
    ((3#8).toNat ≤ 3 ∧ State.reset.mode ≠ .run) ∧ 3 < (4#8).toNat :=
  ⟨fun _ => listens rfl rfl, listens rfl rfl, .inl ⟨rfl, .inl rfl⟩, .inl ⟨rfl, .inr ⟨_, _, rfl, rfl⟩⟩, .inr rfl, rfl, rfl, rfl, by decide +kernel, by decide +kernel⟩

theorem witness_FlipEdgeReachesPinDrivenGroups :
    (State.reset.resetAsserted = false ∧ State.reset.mode ≠ .run) ∧ (cycle.resetAsserted = false ∧ cycle.mode = .run ∧ ∀ g : GroupIx, cycle.groups[g].state ≠ .off) := by
  decide +kernel

/-- Group 0 with regions 0 and 2, and group 3 with none. -/
theorem witness_ReleaseOfHeldGroup :
    let s := { ready with groups := ready.groups.set 3 (group .held .a 0 false 0) }
    (∀ c, Listens s c) ∧ (∀ c, Listens (running (group .held .b 6 false 0)) c) ∧
    ((0#8).toNat = (0 : GroupIx).val ∧ (running (group .held .b 6 false 0)).mode = .run ∧
      (running (group .held .b 6 false 0)).groups[(0 : GroupIx)].state = .held ∧
      (allRegions.filter fun ix => map[ix].enabled && map[ix].group = some 0) = [0, 2]) ∧
    ((3#8).toNat = (3 : GroupIx).val ∧ s.mode = .run ∧ s.groups[(3 : GroupIx)].state = .held ∧
      (allRegions.filter fun ix => map[ix].enabled && map[ix].group = some 3) = [] ∧ s.groups[(3 : GroupIx)].flipPending = false) :=
  ⟨listens rfl rfl, listens rfl rfl, by decide +kernel⟩

theorem witness_RaiseStoresOrDrops : (after .eventTake overflowed).events.queue.length ≤ 31 ∧ 32 ≤ overflowed.events.queue.length ∧
    exec .flipEdge overflowed = .next (after .flipEdge overflowed) := ⟨by decide +kernel, by decide +kernel, rfl⟩

theorem witness_EventTakeRemovesHead :
    (∀ c, Listens overflowed c) ∧ (∃ e rest, overflowed.events.queue = e :: rest) ∧ State.reset.events.queue = [] ∧
    (∃ others : List EventRecord, others ≠ overflowed.events.queue ∧ others.length = overflowed.events.queue.length ∧
      exec .status overflowed = .next (after .status overflowed) ∧
      exec .status { overflowed with events := { overflowed.events with queue := others } } =
        .next (after .status { overflowed with events := { overflowed.events with queue := others } })) :=
  ⟨listens rfl rfl, ⟨_, _, rfl⟩, rfl, overflowed.events.queue.reverse, by decide +kernel, List.length_reverse, rfl, rfl⟩

/-- A mask that is not the held one, and a command other than ATTN_MASK_SET. -/
theorem witness_AttnMaskSetReplacesMask : (∀ c, Listens overflowed c) ∧ ∃ b : EventBlock, b ≠ overflowed.events ∧
    b = { overflowed.events with mask := b.mask, attn := b.attn } ∧
    exec .eventTake overflowed = .next (after .eventTake overflowed) ∧
    exec .eventTake { overflowed with events := b } = .next (after .eventTake { overflowed with events := b }) ∧
    exec .flipEdge overflowed = .next (after .flipEdge overflowed) :=
  ⟨listens rfl rfl, { overflowed.events with mask := 0x0FFF#16, attn := false }, by decide +kernel, rfl, rfl, rfl, rfl⟩

/-- Stored value and operand at M, with and without the flag; n from 1 to M. -/
theorem witness_LaneResultAndVerdict : (255 : Nat) = 2 ^ LaneWidth.w8.bits - 1 ∧ (255 : Nat) ≤ 255 ∧
    ((LaneOperand.mk 255 true).saturated = true → (LaneOperand.mk 255 true).value = 255) ∧
    ((LaneOperand.mk 0 false).saturated = true → (LaneOperand.mk 0 false).value = 255) ∧ 1 ≤ 255 := by
  decide +kernel

/-- The three writes of the example of Chapter 2: lane 3 with operands 250 and 10, lane 7 in no active set. -/
theorem witness_CompositionIsExact : 255 < 2 ^ LaneWidth.w8.bits ∧ 7 < LaneWidth.w8.lanes ∧
    (([word 0x0F#8 0xFA00640A#64, word 0x03#8 0x7814#64, word 0x0C#8 0x0A050000#64].filter fun x => LaneFull .w8 x.mask 3).map
      fun x => laneValue .w8 x.data 3) = [250, 10] ∧
    (([word 0x0F#8 0xFA00640A#64, word 0x03#8 0x7814#64, word 0x0C#8 0x0A050000#64].filter fun x => LaneFull .w8 x.mask 7).map
      fun x => laneValue .w8 x.data 7) = [] := by
  decide +kernel

/-- An active lane and one outside the active set, lane 7 the last. -/
theorem witness_WriteBackWordByLanes : 63 < 8 * laneBytes .w64 ∧ composed.lanes.length = composed.width.lanes ∧ 7 < composed.width.lanes ∧
    (∀ a ∈ composed.lanes, ∀ x ∈ a, x.value < 2 ^ composed.width.bits) ∧ composed.lanes[0]? = some (some ⟨30, false⟩) ∧
    composed.lanes[7]? = some none := by
  decide +kernel

/-- An entry that takes the contribution; one that does not; none for the word, with 15 entries and with 16. -/
theorem witness_ContributionJoinsOrAppends :
    (bankNow ready 0 = .a ∧ ready.regions[(0 : RegionIx)].bankBase (bankNow ready 0) + 0x40#32 = 0x40000040#32) ∧
    ((entry 1 0x40000040#32 0 .a .waiting).addr = 0x40000040#32 ∧ (entry 1 0x40000040#32 0 .a .waiting).state = .waiting ∧
      (entry 1 0x40000040#32 0 .a .waiting).pinned = false) ∧
    (∀ older e younger, [entry 1 0x40000040#32 0 .a .reading] = older ++ e :: younger → e.state ≠ .waiting ∨ e.pinned = true) ∧
    (∀ older e younger, stalled.merge.queue = older ++ e :: younger → e.addr ≠ 0x40000080#32) ∧
    (stalled.merge.queue.take 15).length < 16 ∧ 16 ≤ stalled.merge.queue.length := by
  refine ⟨by decide +kernel, by decide +kernel, ?_, ?_, by decide +kernel, by decide +kernel⟩
  · intro older e younger h
    have he : e ∈ [entry 1 0x40000040#32 0 .a .reading] := by rw [h]; simp
    rw [List.mem_singleton] at he
    subst he
    exact .inl (by decide +kernel)
  · intro older e younger h
    have he : e ∈ stalled.merge.queue := by rw [h]; simp
    revert e
    have hall : ∀ e ∈ stalled.merge.queue, e.addr ≠ 0x40000080#32 := by decide +kernel
    intro e _ he
    exact hall e he

/-- The same state with the port FAILED, as R137 leaves the queue and the hold list. -/
def onFailedPort (s : State) : State :=
  { s with port := { s.port with state := .failed, outstanding := [], offered := [] }, merge := { s.merge with queue := [], hold := [] } }

/-- The stalled write; the same write with room, at its third word, the fourth still to come; and the same on a FAILED port. -/
theorem witness_ContributionStallsOrGoesOn :
    let w : LiveWrite := { tag := 1, region := 2, offset := 0, words := List.replicate 4 full, position := 2 }
    let room := { stalled with merge := { stalled.merge with queue := stalled.merge.queue.take 15 } }
    (stalled.resetAsserted = false ∧ stalled.host.intake = .liveWrite w true ∧ w.words[w.position]? = some full ∧
      stalled.port.state ≠ .failed ∧ stalled.contribute 2 (w.offset + BitVec.ofNat 32 (8 * w.position)) full = none) ∧
    ((room.contribute 2 (w.offset + BitVec.ofNat 32 (8 * w.position)) full).isSome = true ∧ w.position < 3 ∧
      w.words[3]? = some full ∧ full.mask ≠ 0 ∧ ∀ j, w.position < j → j < 3 → ∀ x ∈ w.words[j]?, x.mask = 0) ∧
    (FailedPort (onFailedPort stalled) ∧ (onFailedPort stalled).host.intake = .liveWrite w true) := by
  refine ⟨⟨rfl, by decide +kernel, by decide +kernel, by decide +kernel, rfl⟩,
    ⟨by decide +kernel, by decide +kernel, by decide +kernel, by decide +kernel, ?_⟩, ⟨rfl, rfl, rfl, rfl⟩, rfl⟩
  intro j h1 h2
  exact absurd h1 (by simp only; omega)

/-- The last word of the write, with a flip of group 0 pending and without, and on a FAILED port. -/
theorem witness_ContributionFinishesWrite :
    let w : LiveWrite := { tag := 1, region := 2, offset := 0, words := List.replicate 4 full, position := 3 }
    let s := { stalled with
      merge := { stalled.merge with queue := stalled.merge.queue.take 15 }, host := { stalled.host with intake := .liveWrite w true } }
    (s.resetAsserted = false ∧ FailedPort (onFailedPort s) ∧ (onFailedPort s).host.intake = .liveWrite w true) ∧
      s.host.intake = .liveWrite w true ∧ w.words[w.position]? = some full ∧ s.port.state ≠ .failed ∧
      (s.contribute w.region (w.offset + BitVec.ofNat 32 (8 * w.position)) full).isSome = true ∧
      (∀ j, w.position < j → ∀ x ∈ w.words[j]?, x.mask = 0) ∧ s.regions[w.region].group = some 0 ∧
      (s.groups[(0 : GroupIx)].state = .ready ∧ s.groups[(0 : GroupIx)].flipPending = false) ∧
      (s.groups.set 0 (group .ready .a 5 true 0))[(0 : GroupIx)].flipPending = true := by
  refine ⟨⟨rfl, ⟨rfl, rfl, rfl, rfl⟩, rfl⟩, rfl, rfl, by decide +kernel, by decide +kernel, ?_, by decide +kernel, by decide +kernel, by decide +kernel⟩
  intro j hj x hx
  rw [List.getElem?_eq_none (by simp only [List.length_replicate]; simp only at hj; omega)] at hx
  cases hx

/-- A stalled read of the word at 4000_0040H, with a number of reads held. -/
def readStalled (queue : List MergeEntry) (held : Nat) : State :=
  let s := withQueue ready queue
  { s with
    host := { s.host with
      intake := .liveRead { tag := 3, region := 0, offset := 0x40#32, length := 1 }, records := [openedRecord 3 .read .live 1 1] }
    merge := { s.merge with hold := List.replicate held {
      stamp := 8, tag := 4, first := 0x40000040#32, length := 1, blockers := [0], state := .blocked, issued := 0 } } }

/-- No entry for the word; one with 3 reads held; one with 4; and a FAILED port. -/
theorem witness_StalledReadPresentedAgain :
    let e := entry 0 0x40000040#32 0 .a .reading
    (∀ s ∈ [readStalled [] 0, readStalled [e] 3, readStalled [e] 4],
      s.host.intake = .liveRead { tag := 3, region := 0, offset := 0x40#32, length := 1 } ∧ s.resetAsserted = false ∧ s.port.state ≠ .failed ∧
        s.regions[(0 : RegionIx)].bankBase (bankNow s 0) + 0x40#32 = 0x40000040#32) ∧
    (∀ x ∈ (readStalled [] 0).merge.queue, ¬Covers 0x40000040#32 1 x.addr) ∧
    ((∃ x ∈ (readStalled [e] 3).merge.queue, Covers 0x40000040#32 1 x.addr) ∧ (readStalled [e] 3).merge.hold.length < 4) ∧
    4 ≤ (readStalled [e] 4).merge.hold.length ∧
    (FailedPort (onFailedPort (readStalled [e] 4)) ∧ 1 ≤ 1 ∧
      HasRecord (onFailedPort (readStalled [e] 4)) 3 (openedRecord 3 .read .live 1 1)) := by
  simp only [← State.record?_eq_some_iff]
  unfold FailedPort
  decide +kernel

/-- Drain counts 1 and 2, and an entry of the active bank. -/
theorem witness_EntryRemovalEffects :
    let e := entry 0 0x40000040#32 0 .a .reading
    let f := entry 1 0x40100040#32 0 .b .waiting
    (withQueue (running (group .draining .b 6 false 1)) [f, e]).merge.queue = [f] ++ e :: [] ∧ (∀ x ∈ [f], x.stamp ≠ e.stamp) ∧
      e.group = some 0 ∧ (running (group .draining .b 6 false 1)).groups[(0 : GroupIx)].state = .draining ∧
      e.bank ≠ (running (group .draining .b 6 false 1)).groups[(0 : GroupIx)].active ∧
      (running (group .draining .b 6 false 1)).groups[(0 : GroupIx)].drainCount ≤ 1 ∧
      2 ≤ (running (group .draining .b 6 false 2)).groups[(0 : GroupIx)].drainCount ∧
      (∀ g : GroupIx, f.group = some g → (running (group .draining .b 6 false 1)).groups[g].state = .draining →
        f.bank = (running (group .draining .b 6 false 1)).groups[g].active) := by
  decide +kernel

/-- Timeout 1 with shares 2 and 16; timeout 0; shares 1 and 17. -/
theorem witness_PortSetStoresSettings : (∀ c, Listens ready c) ∧ (1 ≤ (1#8).toNat ∧ 2 ≤ (2#8).toNat ∧ (16#8).toNat ≤ 16) ∧ (0#8).toNat = 0 ∧
    ((1#8).toNat < 2 ∨ 16 < (1#8).toNat) ∧ ((17#8).toNat < 2 ∨ 16 < (17#8).toNat) :=
  ⟨listens rfl rfl, by decide +kernel⟩

/-- A FAILED port and one that is UP; the current probe and another number, both ways told; a PROBE response and a READ response on a
port that is UP with requests outstanding; and READ and WRITE responses that are discarded on ports RECOVERING and FAILED and with an
empty list. -/
theorem witness_ProbeAndRecovery : (∀ c, Listens (onFailedPort ready) c) ∧ (∀ c, Listens ready c) ∧
    ((onFailedPort ready).port.state = .failed ∧ ready.port.state ≠ .failed) ∧
    (recovering.resetAsserted = false ∧ recovering.port.state = .recovering 132 ∧ 1#8 = recovering.port.probeNumber) ∧
    (∀ deadline, recovering.port.state = .recovering deadline → 2#8 ≠ recovering.port.probeNumber) ∧
    (∀ deadline, timingOut.port.state = .recovering deadline → 0#8 ≠ timingOut.port.probeNumber) ∧
    (∃ arrival, Instr.responseTaken (.probe 1) ⟨5, false⟩ = .responseTaken (.probe 1) arrival) ∧
    (recovering.port.state ≠ .up ∧ (onFailedPort ready).port.state ≠ .up ∧ ready.port.state = .up ∧ ready.port.outstanding = []) ∧
    (∃ ok data, MemResponse.read true 0 = .read ok data) ∧ ∃ ok, MemResponse.write true = .write ok :=
  ⟨listens rfl rfl, listens rfl rfl, ⟨rfl, by decide +kernel⟩, ⟨rfl, rfl, rfl⟩, fun _ _ => by decide +kernel, fun _ h => (nomatch h),
    ⟨_, rfl⟩, by decide +kernel, ⟨_, _, rfl⟩, ⟨_, rfl⟩⟩

theorem timingOut_law : ShieldLaw timingOut := by
  refine ⟨by decide +kernel, ?_⟩
  intro x hx h
  obtain rfl := List.mem_singleton.1 hx
  cases h

/-- A request in RUN; the probe; no deadline; and a second response that has not arrived at 41. -/
theorem witness_PassedDeadlineFailsPort :
    (timingOut.resetAsserted = false ∧ ShieldLaw timingOut ∧ timingOut.port.state = .up ∧
      ∃ o p rest, timingOut.port.outstanding = o :: p :: rest ∧ p.deadline < 41 ∧
        exec (.responseTaken (.read true 0) { moment := 41, nextArrived := true }) timingOut =
          .next (after (.responseTaken (.read true 0) { moment := 41, nextArrived := true }) timingOut)) ∧
    (recovering.port.state ≠ .up ∨ recovering.port.outstanding = []) ∧ (ready.port.state ≠ .up ∨ ready.port.outstanding = []) ∧
    (recovering.resetAsserted = false ∧ ShieldLaw recovering ∧ recovering.port.state = .recovering 132 ∧
      recovering.port.outstanding = []) ∧
    ∀ deadline, ready.port.state ≠ .recovering deadline :=
  ⟨⟨rfl, timingOut_law, rfl, _, _, _, rfl, by decide +kernel, rfl⟩, .inl (by decide +kernel), .inr rfl,
    ⟨rfl, ⟨by decide +kernel, by intro x hx; cases hx⟩, rfl, rfl⟩, by intro d h; cases h⟩

/-- Only the scrub engine offers a request. -/
def onlyScrub : State := { ready with scrub := { engine := .offering, jobs := [job 1 .a 0x40200000#32 512 40] } }

/-- A share owed with other requests offered, 7 outstanding; and nothing else offered. -/
theorem witness_GrantToScrub :
    let s := withOutstanding (arbiter 2 .offering) (List.replicate 7 (.passRead 0 0, 0))
    (s.resetAsserted = false ∧ s.port.state = .up ∧ s.port.outstanding.length < 8 ∧
      s.scrub = { engine := .offering, jobs := job 1 .a 0x40200000#32 512 40 :: [] } ∧ s.port.share ≤ s.port.starvation + 1) ∧
    (onlyScrub.scrub = { engine := .offering, jobs := job 1 .a 0x40200000#32 512 40 :: [] } ∧
      NothingOffered onlyScrub) :=
  ⟨by decide +kernel, by decide +kernel, rfl, fun e h => nomatch h⟩

/-- The write-back of the first entry with the count one below the share; the read of an eligible entry, behind one that is READING,
with none offered; and that grant. -/
theorem witness_GrantToMerge :
    let s := arbiter 1 .offering
    let e := entry 0 0x40000100#32 0 .a (.writing 0 10 false)
    let f := entry 1 0x40000200#32 0 .a .waiting
    let r := withQueue ready [entry 0 0x40000208#32 0 .a .reading, f]
    (s.resetAsserted = false ∧ s.port.state = .up ∧ s.port.outstanding.length < 8 ∧ ShareNotOwed s ∧
      (s.scrub.engine = .offering → s.scrub.jobs ≠ []) ∧ s.merge.queue = [] ++ e :: [f] ∧ (∀ x ∈ [] ++ [f], x.stamp ≠ e.stamp) ∧
      e.state = .writing 0 10 false) ∧
    (r.resetAsserted = false ∧ r.port.state = .up ∧ ShareNotOwed r ∧ (∀ x ∈ r.merge.queue, ¬OffersWriteBack x) ∧
      r.port.offered = [] ∧ f.state = .waiting ∧ (∀ x ∈ r.merge.queue, x.stamp < f.stamp → x.addr ≠ f.addr) ∧
      r.merge.hold = [] ∧ ∀ x ∈ [entry 0 0x40000208#32 0 .a .reading], ¬MayBeRead r x) ∧
    ∃ o, (after (.grant 0) r).port.outstanding = r.port.outstanding ++ [o] ∧ o.owner = .mergeRead 1 := by
  refine ⟨by unfold ShareNotOwed; decide +kernel, ⟨rfl, rfl, by unfold ShareNotOwed; decide +kernel, ?_, rfl, rfl, by decide +kernel,
    rfl, ?_⟩, { owner := .mergeRead 1, addr := 0x40000200#32, deadline := 32 }, by decide +kernel, rfl⟩
  · have h : ∀ x ∈ [entry 0 0x40000208#32 0 .a .reading, entry 1 0x40000200#32 0 .a .waiting], x.offersWriteBack = false := by
      decide +kernel
    exact fun x hx ho => Bool.eq_false_iff.1 (h x hx) ((MergeEntry.offersWriteBack_iff x).2 ho)
  · intro x hx hm
    rw [List.mem_singleton] at hx
    subst hx
    exact nomatch hm.1

/-- A PLAIN write taken in BYPASS, after an ARM: its second word, at 3FFF_FFF8H, is offered, and the third, in bank A of region 0,
is withheld at the grant of the second. -/
def crossing (words : List WriteWord) : State :=
  after (.arm 2 0) (after (.hostRequest (some (request 1 0x3FFFFFF8 (.write words)))) mapped)

/-- A READ word; the last word of a PLAIN write; and a PLAIN write with a word left outside the banks, and in one. -/
theorem witness_GrantToPassThrough :
    let s := withQueue (arbiter 1 .offering) []
    let p := after (.hostRequest (some (request 4 0x20000000 (fullWords 1)))) ready
    let q := after (.hostRequest (some tag4)) ready
    let c := crossing [full, full]
    (s.resetAsserted = false ∧ s.port.state = .up ∧ s.port.outstanding.length < 8 ∧ ShareNotOwed s ∧
      (s.scrub.engine = .offering → s.scrub.jobs ≠ []) ∧ s.merge.queue.all (fun e => !e.offersWriteBack) = true ∧
      s.port.offered.head? = some { tag := 7, index := 0, addr := 0x20000000#32, write := none }) ∧
    (p.resetAsserted = false ∧ p.port.state = .up ∧ ShareNotOwed p ∧ p.merge.queue.all (fun e => !e.offersWriteBack) = true ∧
      p.port.offered = { tag := 4, index := 0, addr := 0x20000000#32, write := some full } :: [] ∧
      p.host.intake = .plainWrite { tag := 4, start := 0x20000000#32, words := [full], position := 0 } ∧
      ∀ y ∈ [full][1]?, y.mask = 0) ∧
    (q.port.state = .up ∧ ShareNotOwed q ∧ q.merge.queue.all (fun e => !e.offersWriteBack) = true ∧
      q.port.offered = { tag := 4, index := 0, addr := 0x20000000#32, write := some full } :: [] ∧
      q.host.intake = .plainWrite { tag := 4, start := 0x20000000#32, words := [full, word 0 0, full], position := 0 } ∧
      (0 < 2 ∧ [full, word 0 0, full][2]? = some full ∧ full.mask ≠ 0 ∧
        ∀ j, j < 2 → 0 < j → ∀ y ∈ [full, word 0 0, full][j]?, y.mask = 0) ∧ inAnyBank q.regions 0x20000010#32 = false) ∧
    (c.resetAsserted = false ∧ c.port.state = .up ∧ ShareNotOwed c ∧ c.merge.queue.all (fun e => !e.offersWriteBack) = true ∧
      c.port.offered = { tag := 1, index := 0, addr := 0x3FFFFFF8#32, write := some full } :: [] ∧
      c.host.intake = .plainWrite { tag := 1, start := 0x3FFFFFF8#32, words := [full, full], position := 0 } ∧
      c.mode ≠ .bypass ∧ inAnyBank c.regions (0x3FFFFFF8#32 + BitVec.ofNat 32 (8 * 1)) = true ∧
      HasRecord c 1 (openedRecord 1 .write .plain 2 2) ∧ ([full, full].take 1).countP (fun y => y.mask ≠ 0) = 1) ∧
    ∀ queue : List MergeEntry, queue.all (fun e => !e.offersWriteBack) = true → ∀ e ∈ queue, ¬OffersWriteBack e := by
  simp only [← State.record?_eq_some_iff]
  unfold ShareNotOwed
  refine ⟨?_, ?_, ?_, ?_, fun _ h => no_writeBack h⟩
  · decide +kernel
  · decide +kernel
  · decide +kernel
  · decide +kernel

theorem answers_at_deadline (s : State) (o : Owner × Addr) (p : Owner × Addr) (hr : s.resetAsserted = false) (h : s.port.state = .up) :
    Answers (withOutstanding s [o, p]) { owner := o.1, addr := o.2, deadline := 40 } [{ owner := p.1, addr := p.2, deadline := 40 }]
      ⟨40, false⟩ := by
  refine ⟨hr, h, rfl, ?_⟩
  intro x hx
  cases hx
  exact .inl (le_refl _)

/-- The example of Chapter 2, its report ONCE: lane 3 clamps, and lanes 1 to 3 cross 200. -/
theorem witness_ReadDataEntersWriting :
    let f := entry 2 0x40000180#32 0 .a .waiting
    let data := 0x0707070700C61E32#64
    let s := withOutstanding (withQueue lanes [composed, f]) [(.mergeRead 0, composed.addr), (.passRead 9 0, 0x20000000#32)]
    Answers s { owner := .mergeRead 0, addr := composed.addr, deadline := 40 } s.port.outstanding.tail ⟨40, false⟩ ∧
      s.merge.queue = [] ++ composed :: [f] ∧ composed.stamp = 0 ∧ (∀ x ∈ [] ++ [f], x.stamp ≠ 0) ∧
      s.regions[composed.region] = region4 ∧
      (∀ k, k < composed.width.lanes → (decide (k = 3) = true ↔ clampRaisedOn region4 composed data k)) ∧
      (∀ k, k < composed.width.lanes →
        ((laneOutcome composed region4.threshold data k).crosses = true ↔ laneCrossesOn composed region4.threshold data k)) ∧
      (List.range 8).map (fun k => (laneOutcome composed region4.threshold data k).crosses) =
        [false, true, true, true, false, false, false, false] :=
  ⟨answers_at_deadline _ _ _ rfl rfl, rfl, rfl, by decide +kernel, rfl, by unfold clampRaisedOn; decide +kernel,
    fun k _ => laneOutcome_crosses_iff _ _ _ k, by decide +kernel⟩

theorem witness_AnswerRemovesEntry :
    let e := entry 1 0x40000100#32 0 .a .reading
    let s (o : Owner) := withOutstanding (withQueue ready [e]) [(o, e.addr), (.passRead 9 0, 0x20000000#32)]
    (Answers (s (.mergeWrite 1)) { owner := .mergeWrite 1, addr := e.addr, deadline := 40 } (s (.mergeWrite 1)).port.outstanding.tail ⟨40, false⟩ ∧
      HasEntry (s (.mergeWrite 1)) 1 e) ∧
    (Answers (s (.mergeRead 1)) { owner := .mergeRead 1, addr := e.addr, deadline := 40 } (s (.mergeRead 1)).port.outstanding.tail ⟨40, false⟩ ∧
      HasEntry (s (.mergeRead 1)) 1 e) :=
  ⟨⟨answers_at_deadline _ _ _ rfl rfl, [], [], rfl, rfl, fun _ h => nomatch h⟩, answers_at_deadline _ _ _ rfl rfl, [], [], rfl, rfl,
    fun _ h => nomatch h⟩

/-- A read word before the last and the last one; and the last word of a write. -/
theorem witness_AnswerCompletesWord :
    let s (o : Owner) (r : TxRecord) :=
      { withOutstanding ready [(o, 0x20000000#32), (.scrubWrite none, 0)] with host := { ready.host with records := [r] } }
    let r := openedRecord 9 .read .plain 2 2
    let w := openedRecord 9 .write .plain 1 1
    (Answers (s (.passRead 9 0) r) { owner := .passRead 9 0, addr := 0x20000000#32, deadline := 40 }
        (s (.passRead 9 0) r).port.outstanding.tail ⟨40, false⟩ ∧
      HasRecord (s (.passRead 9 0) r) 9 r ∧ r.completed + 1 < r.awaited ∧
      { r with completed := 1 }.completed + 1 = r.awaited) ∧
    (Answers (s (.passWrite 9 0) w) { owner := .passWrite 9 0, addr := 0x20000000#32, deadline := 40 }
        (s (.passWrite 9 0) w).port.outstanding.tail ⟨40, false⟩ ∧
      HasRecord (s (.passWrite 9 0) w) 9 w ∧ w.data = [] ∧ w.completed + 1 = w.awaited) := by
  simp only [← State.record?_eq_some_iff]
  exact ⟨⟨answers_at_deadline { ready with host := { ready.host with records := [openedRecord 9 .read .plain 2 2] } } _ _ rfl rfl, by decide +kernel,
      by decide +kernel, by decide +kernel⟩,
    answers_at_deadline { ready with host := { ready.host with records := [openedRecord 9 .write .plain 1 1] } } _ _ rfl rfl, by decide +kernel,
    by decide +kernel, by decide +kernel⟩

/-- A job with two words left; a write whose job was discarded; and the job on a FAILED port. -/
theorem witness_AnswerMovesScrubCursor :
    let j := job 1 .a 0x40200000#32 512 510
    let s (o : Owner) := withOutstanding { ready with scrub := { engine := .issued, jobs := [j] } }
      [(o, 0x40200FF0#32), (.passRead 9 0, 0x20000000#32)]
    (Answers (s (.scrubWrite (some { region := 1, bank := .a })))
        { owner := .scrubWrite (some { region := 1, bank := .a }), addr := 0x40200FF0#32, deadline := 40 }
        (s (.scrubWrite none)).port.outstanding.tail ⟨40, false⟩ ∧
      (s (.scrubWrite none)).scrub.jobs = j :: [] ∧ j.cursor + 1 < j.size) ∧
    Answers (s (.scrubWrite none)) { owner := .scrubWrite none, addr := 0x40200FF0#32, deadline := 40 }
      (s (.scrubWrite none)).port.outstanding.tail ⟨40, false⟩ ∧
    ((onFailedPort (s (.scrubWrite none))).port.state ≠ .up ∧ (onFailedPort (s (.scrubWrite none))).scrub.jobs = j :: []) :=
  ⟨⟨answers_at_deadline _ _ _ rfl rfl, rfl, by decide +kernel⟩, answers_at_deadline _ _ _ rfl rfl, fun h => (nomatch h), rfl⟩

/-- The last word of region 2's job: with region 0's left and without; with a flip pending, at a cut point and part-way; and the last
startup job. The same on a FAILED port. -/
theorem witness_LastJobMakesBankReady :
    let j := job 2 .a 0x50000000#32 131072 131071
    let o : Owner × Addr := (.scrubWrite (some { region := 2, bank := .a }), 0x500FFFF8#32)
    let s (pending : Bool) (jobs : List ScrubJob) := withOutstanding
      { running (group .cleaning .b 6 pending 0) with scrub := { engine := .issued, jobs := j :: jobs } } [o, (.passRead 9 0, 0x20000000#32)]
    let w : LiveWrite := { tag := 1, region := 2, offset := 0, words := [full, full], position := 1 }
    let u (jobs : List ScrubJob) := withOutstanding
      { mapped with mode := .starting, armOption := some .scrubAll, scrub := { engine := .issued, jobs := j :: jobs } }
      [o, (.passRead 9 0, 0x20000000#32)]
    (∀ pending jobs, Answers (s pending jobs) { owner := o.1, addr := o.2, deadline := 40 } (s pending jobs).port.outstanding.tail ⟨40, false⟩ ∧
      (s pending jobs).mode = .run ∧ (s pending jobs).scrub.jobs = j :: jobs) ∧
    (j.cursor + 1 = j.size ∧ (s true []).regions[j.region].group = some 0 ∧
      ∀ pending ∈ [false, true], (s pending []).groups[(0 : GroupIx)].state = .cleaning ∧
        (s pending []).groups[(0 : GroupIx)].flipPending = pending) ∧
    (∃ x ∈ [job 0 .a 0x40000000#32 8192 0], map[x.region].group = some 0) ∧
    (¬PartWay (s true []) 0 ∧ PartWay { s true [] with host := { ready.host with intake := .liveWrite w false } } 0) ∧
    (∀ jobs, Answers (u jobs) { owner := o.1, addr := o.2, deadline := 40 } (u jobs).port.outstanding.tail ⟨40, false⟩ ∧
      (u jobs).mode = .starting ∧ (u jobs).armOption = some .scrubAll ∧ (u jobs).scrub.jobs = j :: jobs ∧
      ∀ g : GroupIx, (u jobs).groups[g].state = .off) ∧
    ((∀ pending jobs, (onFailedPort (s pending jobs)).port.state ≠ .up ∧ (onFailedPort (s pending jobs)).mode = .run ∧
        (onFailedPort (s pending jobs)).scrub.jobs = j :: jobs) ∧
      (∀ pending ∈ [false, true], (onFailedPort (s pending [])).groups[(0 : GroupIx)].state = .cleaning ∧
        (onFailedPort (s pending [])).groups[(0 : GroupIx)].flipPending = pending) ∧
      ¬PartWay (onFailedPort (s true [])) 0 ∧
      PartWay (onFailedPort { s true [] with host := { ready.host with intake := .liveWrite w false } }) 0) ∧
    (∀ jobs, (onFailedPort (u jobs)).port.state ≠ .up ∧ (onFailedPort (u jobs)).mode = .starting ∧
      (onFailedPort (u jobs)).armOption = some .scrubAll ∧ (onFailedPort (u jobs)).scrub.jobs = j :: jobs ∧
      ∀ g : GroupIx, (onFailedPort (u jobs)).groups[g].state = .off) :=
  ⟨fun _ _ => ⟨answers_at_deadline _ _ _ rfl rfl, rfl, rfl⟩, by decide +kernel, by decide +kernel,
    ⟨not_partWay_of_idle rfl, ⟨_, _, rfl, by decide +kernel⟩⟩,
    fun _ => ⟨answers_at_deadline _ _ _ rfl rfl, rfl, rfl, rfl, (by decide +kernel : ∀ g : GroupIx, mapped.groups[g].state = .off)⟩,
    ⟨fun _ _ => ⟨fun h => (nomatch h), rfl, rfl⟩, by decide +kernel, not_partWay_of_idle rfl, ⟨_, _, rfl, by decide +kernel⟩⟩,
    fun _ => ⟨fun h => (nomatch h), rfl, rfl, rfl, (by decide +kernel : ∀ g : GroupIx, mapped.groups[g].state = .off)⟩⟩

/-- RUN with tag 3 outstanding. -/
def tag3 : State := { ready with host := { ready.host with records := [openedRecord 3 .read .plain 2 2] } }

/-- An IDLE intake with an empty channel takes the request that arrives. -/
theorem takes {s : State} (r : HostRequest) (hr : s.resetAsserted = false) (hi : s.host.intake = .idle) (hc : s.host.channel = [])
    (hs : s.standing = []) : Takes s (some r) r [] :=
  ⟨hr, hi, by simp only [hc, List.nil_append, Option.toList], fun _ => s.standing_eq_nil_iff.1 hs⟩

/-- Each refusal; BUSY for a closed LIVE request and for an open SNAP read of a group that is not HELD; a FAILED port; a request that
waited on the channel; and an intake that is not IDLE. -/
theorem witness_HostRequestAnsweredAtTaking :
    ((∀ r, Takes tag3 (some r) r []) ∧ (∀ r, Takes (onFailedPort tag3) (some r) r []) ∧
      ∀ r, Takes (withChannel tag3 [r, r]) none r [r]) ∧
    (stalled.resetAsserted = false ∧ stalled.host.intake ≠ .idle) ∧ (ready.host.intake = .idle ∧ ready.host.channel = []) ∧
    ¬TagFree tag3 3 ∧ TagFree tag3 4 ∧
    decodeRequest .run map (request 4 0x10000000 (.read 0)) = .malformed ∧
    (∃ ix, decodeRequest .run map (request 4 0x40100008 (fullWords 1)) = .aliasBank ix) ∧
    (∃ ix off, decodeRequest .run map (request 4 0x11000040 (fullWords 1)) = .snap ix off true) ∧
    (∃ ix off, decodeRequest .stopping map (request 4 0x10000000 (.read 1)) = .live ix off false) ∧
    (∃ ix off, decodeRequest .run map (request 4 0x11000040 (.read 1)) = .snap ix off true) ∧
    tag3.groups[(0 : GroupIx)].state ≠ .held :=
  ⟨⟨fun r => takes r rfl rfl rfl (by decide +kernel), fun r => takes r rfl rfl rfl (by decide +kernel),
      fun _ => ⟨rfl, rfl, rfl, fun h => nomatch h⟩⟩, ⟨rfl, by decide +kernel⟩, ⟨rfl, rfl⟩,
    fun h => h _ (List.mem_singleton.2 rfl) rfl, by unfold TagFree; decide +kernel, by decide +kernel, ⟨0, by decide +kernel⟩,
    ⟨0, 0x40#32, by decide +kernel⟩, ⟨0, 0, by decide +kernel⟩, ⟨0, 0x40#32, by decide +kernel⟩, by decide +kernel⟩

/-- A PLAIN read of 16 words, an ALIAS read, and a SNAP read of a HELD group; and a FAILED port. -/
theorem witness_HostReadPassesThrough :
    ((∀ r, Takes tag3 (some r) r []) ∧ TagFree tag3 4 ∧ tag3.port.state ≠ .failed) ∧
    ((∀ r, Takes (onFailedPort tag3) (some r) r []) ∧ TagFree (onFailedPort tag3) 4 ∧ FailedPort (onFailedPort tag3)) ∧
    decodeRequest .run map (request 4 0x20000000 (.read 16)) = .plain ∧
    decodeRequest .run map (request 4 0x40100008 (.read 1)) = .aliasBank 0 ∧
    ((∀ r, Takes (running (group .held .b 6 false 0)) (some r) r []) ∧
      decodeRequest .run map (request 4 0x11000040 (.read 1)) = .snap 0 0x40#32 true ∧
      (running (group .held .b 6 false 0)).groups[(0 : GroupIx)].state = .held) :=
  ⟨⟨fun r => takes r rfl rfl rfl (by decide +kernel), by unfold TagFree; decide +kernel, by decide +kernel⟩,
    ⟨fun r => takes r rfl rfl rfl (by decide +kernel), by unfold TagFree; decide +kernel, rfl, rfl, rfl, rfl⟩, by decide +kernel,
    by decide +kernel, fun r => takes r rfl rfl rfl (by decide +kernel), by decide +kernel, by decide +kernel⟩

/-- A write whose first mask is 00H and its second FFH; one whose every mask is 00H; and a FAILED port. -/
theorem witness_HostPlainWriteTaken :
    let ws := [word 0 0, full]
    ((∀ r, Takes tag3 (some r) r []) ∧ TagFree tag3 4 ∧ tag3.port.state ≠ .failed ∧
      decodeRequest .run map (request 4 0x20000000 (.write ws)) = .plain) ∧
    ((∀ r, Takes (onFailedPort tag3) (some r) r []) ∧ TagFree (onFailedPort tag3) 4 ∧ FailedPort (onFailedPort tag3)) ∧
    (ws[1]? = some full ∧ full.mask ≠ 0 ∧ ∀ j, j < 1 → ∀ x ∈ ws[j]?, x.mask = 0) ∧
    (decodeRequest .run map (request 4 0x20000000 (.write [word 0 0])) = .plain ∧ ∀ x ∈ [word 0 0], x.mask = 0) :=
  ⟨⟨fun r => takes r rfl rfl rfl (by decide +kernel), by unfold TagFree; decide +kernel, by decide +kernel, by decide +kernel⟩,
    ⟨fun r => takes r rfl rfl rfl (by decide +kernel), by unfold TagFree; decide +kernel, rfl, rfl, rfl, rfl⟩,
    by decide +kernel, by decide +kernel⟩

/-- Every mask 00H; the queue empty, and 16 entries for other words; a word left, and none; a flip pending, and none; and a FAILED
port. -/
theorem witness_HostLiveWriteTaken :
    let s := { stalled with host := { stalled.host with intake := .idle } }
    let ws := [word 0 0, full, full]
    ((∀ r, Takes ready (some r) r []) ∧ TagFree ready 4 ∧ ready.port.state ≠ .failed ∧
      decodeRequest .run map (request 4 0x10000080 (.write ws)) = .live 0 0x80#32 true ∧
      decodeRequest .run map (request 4 0x10000080 (fullWords 1)) = .live 0 0x80#32 true ∧
      (ready.contribute 0 0x88#32 full).isSome = true ∧ (ready.contribute 0 0x80#32 full).isSome = true) ∧
    (∀ x ∈ [word 0 0], x.mask = 0) ∧
    (ws[1]? = some full ∧ full.mask ≠ 0 ∧ (∀ j, j < 1 → ∀ x ∈ ws[j]?, x.mask = 0) ∧ 1 < 2 ∧ ws[2]? = some full ∧
      ∀ j, 1 < j → j < 2 → ∀ x ∈ ws[j]?, x.mask = 0) ∧
    ((∀ r, Takes s (some r) r []) ∧ TagFree s 4 ∧ s.port.state ≠ .failed ∧ s.contribute 0 0x80#32 full = none ∧
      s.groups[(0 : GroupIx)].flipPending = false) ∧
    (∀ j, 0 < j → ∀ x ∈ [full][j]?, x.mask = 0) ∧
    ((∀ r, Takes (running (group .ready .a 5 true 0)) (some r) r []) ∧ map[(0 : RegionIx)].group = some 0 ∧
      (running (group .ready .a 5 true 0)).groups[(0 : GroupIx)].state = .ready ∧
      (running (group .ready .a 5 true 0)).groups[(0 : GroupIx)].flipPending = true) ∧
    ((∀ r, Takes (onFailedPort ready) (some r) r []) ∧ TagFree (onFailedPort ready) 4 ∧ FailedPort (onFailedPort ready)) := by
  refine ⟨⟨fun r => takes r rfl rfl rfl (by decide +kernel), by unfold TagFree; decide +kernel, by decide +kernel, by decide +kernel,
      by decide +kernel, by decide +kernel, by decide +kernel⟩, by decide +kernel, ⟨by decide +kernel, by decide +kernel, by decide +kernel,
      by decide +kernel, by decide +kernel, fun j h1 h2 => absurd h1 (by omega)⟩,
    ⟨fun r => ⟨rfl, rfl, rfl, fun h => nomatch h⟩, by unfold TagFree; decide +kernel, by decide +kernel, by decide +kernel,
      by decide +kernel⟩, ?_, ⟨fun r => takes r rfl rfl rfl (by decide +kernel), by decide +kernel, by decide +kernel, by decide +kernel⟩,
    fun r => takes r rfl rfl rfl (by decide +kernel), by unfold TagFree; decide +kernel, rfl, rfl, rfl, rfl⟩
  intro j hj x hx
  rw [List.getElem?_eq_none (by simp only [List.length_singleton]; omega)] at hx
  cases hx

/-- No entry for the words; an entry with 3 reads held; an entry with 4; and a FAILED port. -/
theorem witness_HostLiveReadTaken :
    let e := entry 0 0x40000040#32 0 .a .reading
    let s (held : Nat) := { readStalled [e] held with host := { ready.host with records := [] } }
    ((∀ r, Takes ready (some r) r []) ∧ (∀ r, Takes (s 3) (some r) r []) ∧ ∀ r, Takes (s 4) (some r) r []) ∧
      TagFree (s 3) 4 ∧ (s 3).port.state ≠ .failed ∧
      decodeRequest .run map (request 4 0x10000040 (.read 1)) = .live 0 0x40#32 true ∧
      (s 3).regions[(0 : RegionIx)].bankBase (bankNow (s 3) 0) + 0x40#32 = 0x40000040#32 ∧
      (∀ x ∈ ready.merge.queue, ¬Covers 0x40000040#32 1 x.addr) ∧
      (∃ x ∈ (s 3).merge.queue, Covers 0x40000040#32 1 x.addr) ∧ (s 3).merge.hold.length < 4 ∧ 4 ≤ (s 4).merge.hold.length ∧
      ((∀ r, Takes (onFailedPort ready) (some r) r []) ∧ TagFree (onFailedPort ready) 4 ∧ FailedPort (onFailedPort ready)) :=
  ⟨⟨fun r => takes r rfl rfl rfl (by decide +kernel), fun _ => ⟨rfl, rfl, rfl, fun h => nomatch h⟩,
      fun _ => ⟨rfl, rfl, rfl, fun h => nomatch h⟩⟩, by unfold TagFree; decide +kernel, by decide +kernel,
    by decide +kernel, by decide +kernel, by decide +kernel, by decide +kernel, by decide +kernel, by decide +kernel,
    fun r => takes r rfl rfl rfl (by decide +kernel), by unfold TagFree; decide +kernel, rfl, rfl, rfl, rfl⟩

/-! The laws at states in the middle of work, each with a step that leaves them. -/

theorem witness_EventLawsKept : EventLaw overflowed ∧ SerialLaw overflowed ∧
    step { overflowed with pending := [.eventTake] } = .next (after .eventTake overflowed) := by
  refine ⟨by unfold EventLaw; decide +kernel, by unfold SerialLaw; decide +kernel, rfl⟩

theorem witness_ListLawsKept :
    (CapacityLaw timingOut ∧ PortLaw timingOut ∧ RecordLaw timingOut ∧ LinkLaw timingOut ∧ ResetLaw timingOut ∧
      step { timingOut with pending := [.responseTimeout] } = .next (after .responseTimeout timingOut)) ∧
    (LinkLaw (clocking (seven .taking [0x01#8, 0x00#8] 0x15#8) true) ∧
      step (clocking (seven .taking [0x01#8, 0x00#8] 0x15#8) true) =
        .next (stepped (clocking (seven .taking [0x01#8, 0x00#8] 0x15#8) true))) ∧
    (ResetLaw { resetHeld with pins := [.releaseReset] } ∧ LinkLaw { resetHeld with pins := [.releaseReset] } ∧
      step { resetHeld with pins := [.releaseReset] } = .next State.reset) := by
  refine ⟨⟨by unfold CapacityLaw; decide +kernel, ⟨fun h => absurd rfl h, by intro h; cases h⟩, by unfold RecordLaw; decide +kernel,
    by unfold LinkLaw; decide +kernel, fun h => (nomatch h), exec_responseTimeout_after timingOut⟩,
    ⟨by unfold LinkLaw; decide +kernel, step_eq_stepped (by decide +kernel)⟩, fun _ => ⟨rfl, rfl, rfl⟩, by unfold LinkLaw; decide +kernel, rfl⟩

theorem witness_BankLawsKept : ModeLaw drainAndClean ∧ RundownLaw drainAndClean ∧ DrainLaw drainAndClean ∧ BankLaw drainAndClean ∧
    step { drainAndClean with pending := [.disarm] } = .next (after .disarm drainAndClean) := by
  refine ⟨by unfold ModeLaw; decide +kernel, fun h => absurd h (by decide +kernel), by unfold DrainLaw; decide +kernel,
    by unfold BankLaw; decide +kernel, rfl⟩

/-- The example of Chapter 11 before its step: an issued write-back, an issued read, and a read offered. -/
theorem witness_QueueLawKept : PortLaw failing11 ∧ QueueLaw failing11 ∧
    step { failing11 with pending := [.grant 0] } = .next (after (.grant 0) failing11) := by
  refine ⟨⟨fun h => absurd rfl h, by intro h; cases h⟩, ⟨by decide +kernel, by decide +kernel, ?_, ?_⟩, exec_grant_after 0 failing11⟩
  · refine List.pairwise_cons.2 ⟨?_, List.pairwise_singleton _ _⟩
    intro y hy stamp
    obtain rfl := List.mem_singleton.1 hy
    refine ⟨fun h => ?_, fun _ h => ?_⟩ <;> cases h
  · intro o ho stamp
    obtain rfl | ho := List.mem_cons.1 ho
    · refine ⟨fun h => ?_, fun h => ?_⟩
      · cases h
      · cases h
        exact ⟨_, List.mem_cons_self, rfl, _, _, rfl⟩
    · obtain rfl := List.mem_singleton.1 ho
      refine ⟨fun h => ?_, fun h => ?_⟩
      · cases h
        exact ⟨_, List.mem_cons_of_mem _ (List.mem_cons_of_mem _ List.mem_cons_self), rfl, rfl⟩
      · cases h

theorem witness_JobLawKept :
    let s := { running (group .cleaning .b 6 false 0) with scrub := { engine := .offering, jobs := [job 2 .a 0x50000000#32 131072 0] } }
    JobLaw s ∧ step { s with pending := [.grant 0] } = .next (after (.grant 0) s) := by
  exact ⟨by unfold JobLaw; decide +kernel, exec_grant_after 0 _⟩

/-- A PLAIN write with a word offered, in RUN, and the grant of a scrub write into a bank. -/
def shielded : State := { after (.hostRequest (some tag4)) ready with scrub := { engine := .offering, jobs := [job 1 .a 0x40200000#32 512 40] } }

theorem shielded_law : ShieldLaw shielded := by
  refine ⟨by decide +kernel, ?_⟩
  intro x hx _
  have hx' : x ∈ [({ tag := 4, index := 0, addr := 0x20000000#32, write := some full } : PassWord)] := hx
  obtain rfl := List.mem_singleton.1 hx'
  exact ⟨⟨{ tag := 4, start := 0x20000000#32, words := [full, word 0 0, full], position := 0 }, by decide +kernel⟩, by decide +kernel⟩

theorem witness_ShieldLawKept : ShieldLaw shielded ∧
    step { shielded with pending := [.grant 0] } = .next (after (.grant 0) shielded) :=
  ⟨shielded_law, exec_grant_after 0 shielded⟩

theorem witness_ShieldKeepsHostWritesFromBanks :
    let s := { shielded with port := { shielded.port with starvation := 3 } }
    ShieldLaw s ∧ s.mode ≠ .bypass ∧ exec (.grant 0) s = .next (after (.grant 0) s) ∧
      (after (.grant 0) s).sent.memory = s.sent.memory ++ [.write 0x40200140#32 0xFF#8 0] ∧ inAnyBank s.regions 0x40200140#32 = true :=
  ⟨shielded_law, by decide +kernel, exec_grant_after 0 _, by decide +kernel, by decide +kernel⟩

/-- A flip with entries to drain, and a step that takes none. -/
theorem witness_EpochChangesByFlipsOnly : ModeLaw cycle ∧ Instr.flip 0 0 ≠ .reset ∧ Instr.disarm ≠ .reset ∧
    exec (.flip 0 0) cycle = .next (after (.flip 0 0) cycle) ∧ exec .disarm cycle = .next (after .disarm cycle) := by
  refine ⟨by unfold ModeLaw; decide +kernel, by decide +kernel, by decide +kernel, rfl, rfl⟩

end Sys2Proof.Tests
end

section
/-! PROOFS. The lane unit and composition (Chapter 2): what each operation makes of a lane (R25, R26), and that composing
operands is merging them one after the other (R29, R31). -/

namespace Sys2Proof.Machine

open Sys2Proof.Safety

/-! ### The values of a lane -/

/-- The two spellings of the range 0 to M (R21). -/
theorem LaneWidth.le_maxValue_iff (w : LaneWidth) (v : Nat) : v ≤ w.maxValue ↔ v < 2 ^ w.bits := by
  have hpos : 0 < 2 ^ w.bits := Nat.two_pow_pos _
  unfold LaneWidth.maxValue
  omega

/-- M has every bit of the lane at 1 (R21). -/
theorem LaneWidth.maxValue_testBit (w : LaneWidth) (i : Nat) : w.maxValue.testBit i = decide (i < w.bits) :=
  Nat.testBit_two_pow_sub_one _ _

/-- The bits of a lane value lie within the lane (R21). -/
theorem LaneWidth.lt_bits_of_testBit {w : LaneWidth} {m i : Nat} (hm : m ≤ w.maxValue) (hi : m.testBit i = true) : i < w.bits := by
  by_contra hge
  have hlt : m < 2 ^ i := lt_of_lt_of_le ((w.le_maxValue_iff m).1 hm) (Nat.pow_le_pow_right (by decide) (Nat.not_lt.1 hge))
  rw [Nat.testBit_lt_two_pow hlt] at hi
  cases hi

/-! ### Result and clamp verdict by operation (R25, R26) -/

section LaneUnit
variable (w : LaneWidth) (m a : Nat)

@[simp] theorem laneResult_wrapAdd : laneResult .wrapAdd w m a = (m + a) % 2 ^ w.bits := rfl

@[simp] theorem laneResult_satAdd : laneResult .satAdd w m a = min (m + a) w.maxValue := by
  simp only [laneResult]
  split <;> omega

@[simp] theorem laneResult_satSub : laneResult .satSub w m a = m - a := by
  simp only [laneResult]
  split <;> omega

@[simp] theorem laneResult_max : laneResult .max w m a = max m a := rfl

@[simp] theorem laneResult_min : laneResult .min w m a = min m a := rfl

theorem laneResult_bitSet_testBit (i : Nat) : (laneResult .bitSet w m a).testBit i = (m.testBit i || a.testBit i) :=
  Nat.testBit_or m a i

@[simp] theorem laneResult_replace : laneResult .replace w m a = a := rfl

variable {w m} in
/-- BIT_CLEAR keeps the stored bits that are 0 in the operand (R25). -/
theorem laneResult_bitClear_testBit (hm : m ≤ w.maxValue) (a i : Nat) :
    (laneResult .bitClear w m a).testBit i = (m.testBit i && !a.testBit i) := by
  simp only [laneResult, Nat.testBit_and, Nat.testBit_xor, w.maxValue_testBit]
  cases hi : m.testBit i with
  | false => rfl
  | true => simp [LaneWidth.lt_bits_of_testBit hm hi]

variable {w m} in
theorem laneResult_bitClear_le (hm : m ≤ w.maxValue) (a : Nat) : laneResult .bitClear w m a ≤ w.maxValue :=
  Nat.and_le_left.trans hm

variable {w m a} in
/-- The result of an active lane is a lane value under every operation (R25). -/
theorem laneResult_le_maxValue (op : Operation) (hm : m ≤ w.maxValue) (ha : a ≤ w.maxValue) : laneResult op w m a ≤ w.maxValue := by
  cases op with
  | wrapAdd => exact (w.le_maxValue_iff _).2 (Nat.mod_lt _ (Nat.two_pow_pos _))
  | satAdd => simp
  | satSub => simp only [laneResult_satSub]; omega
  | max => exact Nat.max_le.2 ⟨hm, ha⟩
  | min => exact (Nat.min_le_left m a).trans hm
  | bitSet =>
    rw [w.le_maxValue_iff] at hm ha ⊢
    exact Nat.or_lt_two_pow hm ha
  | bitClear => exact laneResult_bitClear_le hm a
  | replace => exact ha

variable {w m} in
/-- WRAP_ADD of the complement of n is undone by adding n (R25). -/
theorem laneResult_wrapAdd_complement {n : Nat} (hm : m ≤ w.maxValue) (hn : n ≤ w.maxValue) :
    (laneResult .wrapAdd w m (w.maxValue - n + 1) + n) % 2 ^ w.bits = m := by
  have hsum : m + (w.maxValue - n + 1) + n = m + 2 ^ w.bits := by
    have hpos : 0 < 2 ^ w.bits := Nat.two_pow_pos _
    unfold LaneWidth.maxValue at hn ⊢
    omega
  rw [laneResult_wrapAdd, Nat.mod_add_mod, hsum, Nat.add_mod_right, Nat.mod_eq_of_lt ((w.le_maxValue_iff m).1 hm)]

variable (a : LaneOperand)

@[simp] theorem laneClamps_satAdd_iff : laneClamps .satAdd w m a = true ↔ w.maxValue < m + a.value ∨ a.saturated = true := by
  simp [laneClamps]

@[simp] theorem laneClamps_satSub_iff : laneClamps .satSub w m a = true ↔ m < a.value ∨ a.saturated = true := by
  simp [laneClamps]

variable {op : Operation} in
/-- No operation but SAT_ADD and SAT_SUB clamps (R26). -/
theorem laneClamps_of_not_saturating (hadd : op ≠ .satAdd) (hsub : op ≠ .satSub) : laneClamps op w m a = false := by
  cases op with
  | satAdd => exact absurd rfl hadd
  | satSub => exact absurd rfl hsub
  | wrapAdd | max | min | bitSet | bitClear | replace => rfl

variable {w m a}

/-- A lane that clamps upward holds M, when the flag stands only with operand M (R26). -/
theorem laneResult_satAdd_of_clamps (hflag : a.saturated = true → a.value = w.maxValue)
    (h : laneClamps .satAdd w m a = true) : laneResult .satAdd w m a.value = w.maxValue := by
  rw [laneResult_satAdd]
  obtain hover | hset := (laneClamps_satAdd_iff w m a).1 h
  · omega
  · have := hflag hset
    omega

/-- A lane that clamps downward holds 0, when the flag stands only with operand M (R26). -/
theorem laneResult_satSub_of_clamps (hm : m ≤ w.maxValue) (hflag : a.saturated = true → a.value = w.maxValue)
    (h : laneClamps .satSub w m a = true) : laneResult .satSub w m a.value = 0 := by
  rw [laneResult_satSub]
  obtain hunder | hset := (laneClamps_satSub_iff w m a).1 h
  · omega
  · have := hflag hset
    omega

end LaneUnit

/-! ### Composition of one operand into a lane (R29, R30) -/

section Composition
variable {w : LaneWidth} {m : Nat} (a : LaneOperand) (d : Nat)

/-- The value of a saturating composition (R29). -/
theorem addSaturating_value : (addSaturating w a d).value = min (a.value + d) w.maxValue := by
  unfold addSaturating
  split
  · exact (Nat.min_eq_left ‹_›).symm
  · exact (Nat.min_eq_right (Nat.le_of_not_le ‹_›)).symm

/-- The flag of a saturating composition is set by a cut and stays set (R30). -/
theorem addSaturating_saturated_iff :
    (addSaturating w a d).saturated = true ↔ a.saturated = true ∨ w.maxValue < a.value + d := by
  unfold addSaturating
  split
  · have : ¬ w.maxValue < a.value + d := by omega
    simp [this]
  · have : w.maxValue < a.value + d := by omega
    simp [this]

/-- The result of a composed operand is that of the two merges, one on the other's result (R31). -/
theorem laneResult_composeOperand (op : Operation) (hm : m ≤ w.maxValue) :
    laneResult op w m (composeOperand op w a d).value = laneResult op w (laneResult op w m a.value) d := by
  cases op with
  | wrapAdd => simp [composeOperand, Nat.add_assoc]
  | satAdd => simp only [composeOperand, addSaturating_value, laneResult_satAdd]; omega
  | satSub => simp only [composeOperand, addSaturating_value, laneResult_satSub]; omega
  | max => exact (Nat.max_assoc m a.value d).symm
  | min => exact (Nat.min_assoc m a.value d).symm
  | bitSet => exact (Nat.or_assoc m a.value d).symm
  | bitClear =>
    apply Nat.eq_of_testBit_eq
    intro i
    rw [laneResult_bitClear_testBit hm, laneResult_bitClear_testBit (laneResult_bitClear_le hm _), laneResult_bitClear_testBit hm]
    simp [composeOperand, Bool.and_assoc]
  | replace => rfl

/-- A composed operand clamps exactly when one of the two merges clamps (R31). -/
theorem laneClamps_composeOperand (op : Operation) (hm : m ≤ w.maxValue) :
    laneClamps op w m (composeOperand op w a d) =
      (laneClamps op w m a || laneClamps op w (laneResult op w m a.value) { value := d, saturated := false }) := by
  cases op with
  | satAdd =>
    rw [Bool.eq_iff_iff, Bool.or_eq_true]
    simp only [composeOperand, laneClamps_satAdd_iff, laneResult_satAdd, addSaturating_value, addSaturating_saturated_iff]
    cases a.saturated
    · simp
      omega
    · simp
  | satSub =>
    rw [Bool.eq_iff_iff, Bool.or_eq_true]
    simp only [composeOperand, laneClamps_satSub_iff, laneResult_satSub, addSaturating_value, addSaturating_saturated_iff]
    cases a.saturated
    · simp
      omega
    · simp
  | wrapAdd | max | min | bitSet | bitClear | replace => rfl

/-- A lane's composed operand merged once is the lane's first operand merged, and then the others in their order (R31). -/
theorem merge_foldl_composeOperand (op : Operation) (hm : m ≤ w.maxValue) (ds : List Nat) :
    (laneResult op w m (ds.foldl (composeOperand op w) a).value, laneClamps op w m (ds.foldl (composeOperand op w) a)) =
      ds.foldl (mergeOnce op w) (laneResult op w m a.value, laneClamps op w m a) := by
  induction ds generalizing a with
  | nil => rfl
  | cons d ds ih =>
    rw [List.foldl_cons, List.foldl_cons, ih, laneResult_composeOperand a d op hm, laneClamps_composeOperand a d op hm]
    rfl

end Composition

/-! ### One lane of an entry formed from several contributions (R22, R23, R29) -/

/-- What a contribution brings to lane k (R22, R23). -/
def contributionLane (w : LaneWidth) (k : Nat) (word : WriteWord) : Option LaneOperand :=
  if LaneFull w word.mask k then some { value := laneValue w word.data k, saturated := false } else none

/-- The operands that contributions bring to lane k, in their order (R23). -/
def laneOperands (w : LaneWidth) (k : Nat) (words : List WriteWord) : List Nat :=
  (words.filter fun x => LaneFull w x.mask k).map fun x => laneValue w x.data k

section OneLane
variable {w : LaneWidth} {k : Nat} {word : WriteWord}

theorem contributionLanes_getElem? (hk : k < w.lanes) (word : WriteWord) :
    (contributionLanes w word)[k]? = some (contributionLane w k word) := by
  simp [contributionLanes, contributionLane, hk, laneFull_iff]

theorem contributionLane_of_full (h : LaneFull w word.mask k) :
    contributionLane w k word = some { value := laneValue w word.data k, saturated := false } := if_pos h

theorem contributionLane_of_not_full (h : ¬ LaneFull w word.mask k) : contributionLane w k word = none := if_neg h

theorem laneOperands_cons_of_full (h : LaneFull w word.mask k) (words : List WriteWord) :
    laneOperands w k (word :: words) = laneValue w word.data k :: laneOperands w k words := by
  unfold laneOperands
  rw [List.filter_cons_of_pos (by exact decide_eq_true h), List.map_cons]

theorem laneOperands_cons_of_not_full (h : ¬ LaneFull w word.mask k) (words : List WriteWord) :
    laneOperands w k (word :: words) = laneOperands w k words := by
  unfold laneOperands
  rw [List.filter_cons_of_neg (by exact fun hfull => h (of_decide_eq_true hfull))]

variable (op : Operation)

@[simp] theorem composeLane_some_some (a d : LaneOperand) :
    composeLane op w (some a) (some d) = some (composeOperand op w a d.value) := rfl

@[simp] theorem composeLane_none_some (d : LaneOperand) :
    composeLane op w none (some d) = some { value := d.value, saturated := false } := rfl

@[simp] theorem composeLane_none_right (mine : Option LaneOperand) : composeLane op w mine none = mine := by
  cases mine <;> rfl

variable {op} in
/-- Lane k of an entry depends on lane k of its contributions alone (R29). -/
theorem foldl_joinLanes_getElem? (hk : k < w.lanes) (words : List WriteWord) {entry : List (Option LaneOperand)}
    {lane : Option LaneOperand} (h : entry[k]? = some lane) :
    ((words.map (contributionLanes w)).foldl (joinLanes op w) entry)[k]? =
      some ((words.map (contributionLane w k)).foldl (composeLane op w) lane) := by
  induction words generalizing entry lane with
  | nil => exact h
  | cons word words ih =>
    apply ih
    rw [joinLanes, List.getElem?_zipWith, h, contributionLanes_getElem? hk]

/-- An active lane takes in the operands of the contributions in which it is active (R29). -/
theorem foldl_composeLane_some (words : List WriteWord) (a : LaneOperand) :
    (words.map (contributionLane w k)).foldl (composeLane op w) (some a) =
      some ((laneOperands w k words).foldl (composeOperand op w) a) := by
  induction words generalizing a with
  | nil => rfl
  | cons word words ih =>
    rw [List.map_cons, List.foldl_cons]
    by_cases hfull : LaneFull w word.mask k
    · rw [contributionLane_of_full hfull, composeLane_some_some, ih, laneOperands_cons_of_full hfull, List.foldl_cons]
    · rw [contributionLane_of_not_full hfull, composeLane_none_right, ih, laneOperands_cons_of_not_full hfull]

/-- A lane that is active in no contribution stays outside the active set (R29). -/
theorem foldl_composeLane_none_of_nil (words : List WriteWord) (h : laneOperands w k words = []) :
    (words.map (contributionLane w k)).foldl (composeLane op w) none = none := by
  induction words with
  | nil => rfl
  | cons word words ih =>
    rw [List.map_cons, List.foldl_cons]
    by_cases hfull : LaneFull w word.mask k
    · rw [laneOperands_cons_of_full hfull] at h
      cases h
    · rw [laneOperands_cons_of_not_full hfull] at h
      rw [contributionLane_of_not_full hfull, composeLane_none_right, ih h]

/-- A lane outside the active set becomes active with its first operand, the flag clear (R29, R30). -/
theorem foldl_composeLane_none_of_cons (words : List WriteWord) {d : Nat} {ds : List Nat} (h : laneOperands w k words = d :: ds) :
    (words.map (contributionLane w k)).foldl (composeLane op w) none =
      some (ds.foldl (composeOperand op w) { value := d, saturated := false }) := by
  induction words with
  | nil => cases h
  | cons word words ih =>
    rw [List.map_cons, List.foldl_cons]
    by_cases hfull : LaneFull w word.mask k
    · rw [laneOperands_cons_of_full hfull, List.cons.injEq] at h
      obtain ⟨rfl, rfl⟩ := h
      rw [contributionLane_of_full hfull, composeLane_none_some, foldl_composeLane_some]
    · rw [laneOperands_cons_of_not_full hfull] at h
      rw [contributionLane_of_not_full hfull, composeLane_none_right, ih h]

variable {op} in
/-- Lane k of an entry formed from `c :: cs`, starting from no active lane (R29). -/
theorem foldl_joinLanes_contributionLanes_getElem? (hk : k < w.lanes) (c : WriteWord) (cs : List WriteWord) :
    ((cs.map (contributionLanes w)).foldl (joinLanes op w) (contributionLanes w c))[k]? =
      some (((c :: cs).map (contributionLane w k)).foldl (composeLane op w) none) := by
  have hfirst : composeLane op w none (contributionLane w k c) = contributionLane w k c := by
    unfold contributionLane
    split <;> rfl
  rw [foldl_joinLanes_getElem? hk cs (contributionLanes_getElem? hk c), List.map_cons, List.foldl_cons, hfirst]

end OneLane

/-! ### The obligations -/

/-- Settles O28, from the lane unit's result and verdict by operation. -/
theorem laneResultAndVerdict : Obligations.LaneResultAndVerdict := by
  unfold Obligations.LaneResultAndVerdict
  rintro w m a top htop hm ha hflag
  obtain rfl : top = w.maxValue := htop
  exact ⟨laneResult_wrapAdd w m a.value, rfl, rfl, laneResult_max w m a.value, laneResult_min w m a.value,
    laneResult_bitSet_testBit w m a.value, laneResult_bitClear_testBit hm a.value, laneResult_replace w m a.value,
    fun op => laneResult_le_maxValue op hm ha, fun n _ hn => laneResult_wrapAdd_complement hm hn,
    laneClamps_satAdd_iff w m a, laneClamps_satSub_iff w m a, fun op => laneClamps_of_not_saturating w m a,
    laneResult_satAdd_of_clamps hflag, laneResult_satSub_of_clamps hm hflag⟩

/-- Settles O29: the lane's operands are composed one by one, and each composition is one merge after another. -/
theorem compositionIsExact : Obligations.CompositionIsExact := by
  unfold Obligations.CompositionIsExact
  rintro op w m k c cs lanes operands hm hk rfl rfl
  rw [foldl_joinLanes_contributionLanes_getElem? hk, ← laneOperands]
  have hle : m ≤ w.maxValue := (w.le_maxValue_iff m).2 hm
  constructor
  · intro hnil
    rw [foldl_composeLane_none_of_nil op _ hnil]
  · intro hne
    obtain ⟨d, ds, hcons⟩ := List.exists_cons_of_ne_nil hne
    have hfirst : mergeOnce op w (m, false) d = (laneResult op w m d, laneClamps op w m { value := d, saturated := false }) := by
      simp [mergeOnce]
    refine ⟨_, congrArg some (foldl_composeLane_none_of_cons op _ hcons), ?_⟩
    rw [hcons, List.foldl_cons, hfirst]
    exact merge_foldl_composeOperand _ op hle ds

end Sys2Proof.Machine
end

section
/-! PROOFS. The event block (Chapter 8): what each command can do to the records and to the management link (R148, R150), and
what the head, the number held and the mask govern (R150, R152, R153). -/

namespace Sys2Proof.Machine

open Sys2Proof.Safety

/-! ### What raising records does to the queue and the mask (R145, R152) -/

/-- Raising records adds records at the young end only (R145). -/
theorem EventBlock.raise_queue_appends (b : EventBlock) (r : Report) : ∃ stored, (b.raise r).queue = b.queue ++ stored := by
  obtain ⟨-, hq, -⟩ | ⟨-, hb⟩ := b.raise_cases r
  · exact ⟨_, hq⟩
  · exact ⟨[], by rw [hb, List.append_nil]⟩

theorem Raises.queue_appends {s t : State} (h : Raises s t) : ∃ stored, t.events.queue = s.events.queue ++ stored := by
  obtain ⟨rs, hrs⟩ := h
  rw [hrs]
  clear hrs
  generalize s.events = b
  induction rs generalizing b with
  | nil => exact ⟨[], (List.append_nil _).symm⟩
  | cons r rs ih =>
    obtain ⟨first, hfirst⟩ := b.raise_queue_appends r
    obtain ⟨others, hothers⟩ := ih (b.raise r)
    exact ⟨first ++ others, by rw [List.foldl_cons, hothers, hfirst, List.append_assoc]⟩

theorem Raises.mask_eq {s t : State} (h : Raises s t) : t.events.mask = s.events.mask := by
  obtain ⟨rs, hrs⟩ := h
  rw [hrs]
  clear hrs
  generalize s.events = b
  induction rs generalizing b with
  | nil => rfl
  | cons r rs ih => rw [List.foldl_cons, ih, EventBlock.raise_mask]

/-- Storing or dropping, and the serial and loss mark that go with it, do not look at the mask (R145, R152). -/
theorem EventBlock.raise_under_mask (b : EventBlock) (m : Half) (a : Bool) (r : Report) :
    let other : EventBlock := { b with mask := m, attn := a }
    (other.raise r).queue = (b.raise r).queue ∧ (other.raise r).serial = (b.raise r).serial ∧
      (other.raise r).loss = (b.raise r).loss := by
  dsimp only [EventBlock.raise]
  split
  · exact ⟨rfl, rfl, rfl⟩
  · exact ⟨rfl, rfl, rfl⟩

/-! ### Steps of a block inside the part -/

/-- A step of a block inside the part: it raises records only, and it leaves the management link alone. -/
structure BlockStep (s t : State) : Prop where
  raises : Raises s t
  link : t.link = s.link

theorem BlockStep.refl (s : State) : BlockStep s s := ⟨.refl s, rfl⟩

theorem BlockStep.of_eq {s t : State} (he : t.events = s.events) (hl : t.link = s.link) : BlockStep s t := ⟨.of_eq he, hl⟩

theorem BlockStep.trans {s t u : State} (hst : BlockStep s t) (htu : BlockStep t u) : BlockStep s u :=
  ⟨hst.raises.trans htu.raises, htu.link.trans hst.link⟩

/-- A step of a block from a state that differs in neither the events nor the link. -/
theorem BlockStep.after {s s' t : State} (h : BlockStep s' t) (he : s'.events = s.events) (hl : s'.link = s.link) : BlockStep s t :=
  (BlockStep.of_eq he hl).trans h

theorem State.settle_blockStep (s : State) : BlockStep s s.settle := ⟨s.settle_raises, s.settle_link⟩

theorem State.judgeStopping_blockStep (s : State) : BlockStep s s.judgeStopping :=
  ⟨s.judgeStopping_raises, s.judgeStopping_link⟩

/-- A command settles the port and judges the end of STOPPING after what it presents. -/
theorem BlockStep.settled_judged {s t : State} (h : BlockStep s t) : BlockStep s t.settle.judgeStopping :=
  (h.trans t.settle_blockStep).trans (State.judgeStopping_blockStep _)

theorem BlockStep.unlessReset {s t : State} (h : BlockStep s t) : BlockStep s (s.unlessReset t) := by
  unfold State.unlessReset
  split
  · exact .refl s
  · exact h

/-! #### The host port (Chapter 6) -/

theorem State.offerPlain_blockStep (s : State) (w : PlainWrite) : BlockStep s (s.offerPlain w) :=
  ⟨s.offerPlain_raises w, s.offerPlain_link w⟩

theorem State.contribute_link {s t : State} {ix : RegionIx} {offset : Addr} {word : WriteWord}
    (h : s.contribute ix offset word = some t) : t.link = s.link := by
  obtain ⟨y, -, -, rfl⟩ | ⟨-, -, rfl⟩ := State.contribute_cases h <;> rfl

theorem State.presentWord_blockStep (s : State) (w : LiveWrite) : BlockStep s (s.presentWord w) := by
  refine ⟨s.presentWord_raises w, ?_⟩
  cases hw : w.words[w.position]? with
  | none => simp [State.presentWord, hw]
  | some word =>
    obtain ⟨-, h⟩ | ⟨t, i, ht, -, h⟩ | ⟨t, ht, -, h⟩ := s.presentWord_cases w hw
    · simp [h]
    · simp [h, State.contribute_link ht]
    · simp [h, State.contribute_link ht]

theorem State.presentRead_blockStep (s : State) (r : LiveRead) : BlockStep s (s.presentRead r) :=
  .of_eq (s.presentRead_events r) (s.presentRead_link r)

theorem State.refuseRequest_blockStep (s : State) (r : HostRequest) (reason : Cause) : BlockStep s (s.refuseRequest r reason) :=
  ⟨.one _ rfl, rfl⟩

theorem State.takePlainWrite_blockStep (s : State) (r : HostRequest) (words : List WriteWord) :
    BlockStep s (s.takePlainWrite r words) := by
  unfold State.takePlainWrite
  split
  · exact .of_eq rfl rfl
  · exact .after (State.offerPlain_blockStep _ _) rfl rfl

theorem State.takeLiveWrite_blockStep (s : State) (r : HostRequest) (ix : RegionIx) (offset : Addr) (words : List WriteWord) :
    BlockStep s (s.takeLiveWrite r ix offset words) := by
  unfold State.takeLiveWrite
  split
  · exact .of_eq rfl rfl
  · exact .after (State.presentWord_blockStep _ _) rfl rfl

theorem State.takeLiveRead_blockStep (s : State) (tag : Tag) (ix : RegionIx) (offset : Addr) (length : Nat) :
    BlockStep s (s.takeLiveRead tag ix offset length) := by
  unfold State.takeLiveRead
  exact .after (State.presentRead_blockStep _ _) rfl rfl

theorem State.takeSnapRead_blockStep (s : State) (r : HostRequest) (ix : RegionIx) (offset : Addr) (length : Nat) :
    BlockStep s (s.takeSnapRead r ix offset length) := by
  unfold State.takeSnapRead
  repeat' split
  all_goals exact .of_eq rfl rfl

theorem State.takeRequest_blockStep (s : State) (r : HostRequest) : BlockStep s (s.takeRequest r) := by
  unfold State.takeRequest
  repeat' split
  · exact s.refuseRequest_blockStep r _
  · exact s.refuseRequest_blockStep r _
  · exact .of_eq rfl rfl
  · exact .of_eq rfl rfl
  · exact s.refuseRequest_blockStep r _
  · exact s.refuseRequest_blockStep r _
  · exact s.takeSnapRead_blockStep r _ _ _
  · exact .of_eq rfl rfl
  · exact .of_eq rfl rfl
  · exact s.takePlainWrite_blockStep r _
  · exact s.takeLiveWrite_blockStep r _ _ _
  · exact s.takeLiveRead_blockStep _ _ _ _

theorem State.takeNext_blockStep (s : State) : BlockStep s s.takeNext := by
  unfold State.takeNext
  repeat' split
  · exact .refl s
  · exact .after ((State.takeRequest_blockStep _ _).trans (State.settle_blockStep _)) rfl rfl
  · exact .refl s

theorem State.presentNext_blockStep (s : State) : BlockStep s s.presentNext := by
  cases hi : s.host.intake with
  | liveWrite w stalled => simpa only [State.presentNext, hi] using (s.presentWord_blockStep w).settled_judged
  | _ => rw [State.presentNext_none (by simp [hi])]; exact .refl s

theorem State.presentStalled_blockStep (s : State) : BlockStep s s.presentStalled := by
  unfold State.presentStalled
  repeat' split
  · exact (s.presentRead_blockStep _).settled_judged
  all_goals exact .refl s

/-! #### The memory port (Chapter 7) -/

theorem State.grantOffer_blockStep (s : State) (o : Offer) (now : Nat) : BlockStep s (s.grantOffer o now) := by
  cases o with
  | word x => exact .after ⟨State.wordPassed_raises _ x, State.wordPassed_link _ x⟩ rfl rfl
  | _ => exact .of_eq rfl rfl

theorem State.makeGrant_blockStep (s : State) (now : Nat) : BlockStep s (s.makeGrant now) := by
  unfold State.makeGrant
  repeat' split
  · exact .refl s
  · exact (s.grantOffer_blockStep _ now).trans (State.judgeStopping_blockStep _)
  · exact .refl s

theorem State.removeEntry_blockStep (s : State) (e : MergeEntry) (fault : Option (Cause × ReportedState)) :
    BlockStep s (s.removeEntry e fault) :=
  ⟨s.removeEntry_raises e fault, s.removeEntry_link e fault⟩

theorem State.completeWord_blockStep (s : State) (tag : Tag) (index : Nat) (failed : Bool) (data : Word64) :
    BlockStep s (s.completeWord tag index failed data) :=
  .of_eq (s.completeWord_events tag index failed data) (s.completeWord_link tag index failed data)

theorem State.handResponse_blockStep (s : State) (o : Outstanding) (m : MemResponse) : BlockStep s (s.handResponse o m) := by
  unfold State.handResponse
  split
  case h_1 stamp _ =>
    split
    · exact .refl s
    · split
      · exact ⟨⟨_, rfl⟩, rfl⟩
      · exact s.removeEntry_blockStep _ _
  case h_2 stamp _ =>
    split
    · exact .refl s
    · exact s.removeEntry_blockStep _ _
  case h_3 tag index _ => exact s.completeWord_blockStep tag index _ _
  case h_4 tag index _ => exact s.completeWord_blockStep tag index _ _
  case h_5 _ _ => exact ⟨s.scrubDone_raises _, s.scrubDone_link _⟩
  case h_6 _ => exact .refl s

theorem State.enterFailed_blockStep (s : State) (timedOut : Option Outstanding) : BlockStep s (s.enterFailed timedOut) :=
  ⟨s.enterFailed_raises timedOut, s.enterFailed_link timedOut⟩

theorem State.timeOut_blockStep (s : State) : BlockStep s s.timeOut :=
  (s.enterFailed_blockStep _).trans (State.judgeStopping_blockStep _)

theorem State.takeAnswer_blockStep (s : State) (m : MemResponse) (now : Arrival) : BlockStep s (s.takeAnswer m now) := by
  have handed (rest : List Outstanding) (o : Outstanding) :
      BlockStep s (State.handResponse { s with port := { s.port with outstanding := rest } } o m).judgeStopping :=
    .after ((State.handResponse_blockStep _ o m).trans (State.judgeStopping_blockStep _)) rfl rfl
  unfold State.takeAnswer
  dsimp only
  repeat' split
  · exact .refl s
  · exact (handed _ _).trans (State.timeOut_blockStep _)
  · exact handed _ _

theorem State.takeProbe_blockStep (s : State) (number : Byte) : BlockStep s (s.takeProbe number) := by
  unfold State.takeProbe
  repeat' split
  · exact ⟨.one _ rfl, rfl⟩
  all_goals exact .refl s

theorem State.takeResponse_blockStep (s : State) (m : MemResponse) (now : Arrival) : BlockStep s (s.takeResponse m now) := by
  unfold State.takeResponse
  repeat' split
  · exact s.takeProbe_blockStep _
  · exact s.takeAnswer_blockStep _ now
  · exact .refl s
  · exact s.takeAnswer_blockStep _ now
  · exact .refl s

theorem State.lapse_blockStep (s : State) : BlockStep s s.lapse := by
  unfold State.lapse
  split
  · exact s.timeOut_blockStep
  · exact .refl s

theorem State.lapseProbe_blockStep (s : State) : BlockStep s s.lapseProbe := by
  unfold State.lapseProbe
  split
  · exact (s.enterFailed_blockStep none).trans (State.judgeStopping_blockStep _)
  all_goals exact .refl s

/-! #### The FLIP line (R72) -/

theorem State.requestFlip_blockStep (s : State) (g : GroupIx) (source : Cause) : BlockStep s (s.requestFlip g source).1 := by
  refine ⟨s.requestFlip_raises g source, ?_⟩
  unfold State.requestFlip
  dsimp only
  (repeat' split) <;> simp

theorem State.edgeReaches_blockStep (s : State) (g : GroupIx) : BlockStep s (s.edgeReaches g) := by
  unfold State.edgeReaches
  split
  · exact s.requestFlip_blockStep g .pin
  · exact .refl s

theorem foldl_edgeReaches_blockStep (gs : List GroupIx) (s : State) : BlockStep s (gs.foldl State.edgeReaches s) := by
  induction gs generalizing s with
  | nil => exact .refl s
  | cons g gs ih => exact (s.edgeReaches_blockStep g).trans (ih _)

theorem State.takeEdge_blockStep (s : State) : BlockStep s s.takeEdge := by
  unfold State.takeEdge
  split
  · exact foldl_edgeReaches_blockStep _ s
  · exact .refl s

/-! ### The management commands: what they raise -/

theorem State.flipCommand_raises (s : State) (group : Byte) : Raises s (s.flipCommand group).1 := by
  unfold State.flipCommand
  repeat' split
  · exact .refl s
  · exact .refl s
  · exact s.requestFlip_raises _ _

theorem State.releaseHeld_raises (s : State) (g : GroupIx) : Raises s (s.releaseHeld g).1 := by
  unfold State.releaseHeld
  dsimp only
  split
  · exact s.enterReady_raises g
  · exact .of_eq rfl

theorem State.releaseCommand_raises (s : State) (group : Byte) : Raises s (s.releaseCommand group).1 := by
  unfold State.releaseCommand
  repeat' split
  · exact .refl s
  · exact .refl s
  · exact s.releaseHeld_raises _
  · exact .refl s

theorem Raises.appendJobs {s t : State} (h : Raises s t) (jobs : List ScrubJob) : Raises s (t.appendJobs jobs) :=
  h.trans (.of_eq rfl)

theorem State.armPassed_raises (s : State) (option : ArmOption) : Raises s (s.armPassed option) := by
  have checked (t : State) (he : t.events = s.events) : Raises s t.recheckOffered := (Raises.of_eq he).trans t.recheckOffered_raises
  unfold State.armPassed
  refine Raises.trans ?_ (State.judgeStarting_raises _)
  split
  · refine .appendJobs ?_ _
    exact checked _ rfl
  · exact checked _ rfl

theorem State.armCommand_raises (s : State) (code : Byte) : Raises s (s.armCommand code).1 := by
  unfold State.armCommand
  repeat' split
  · exact .refl s
  · exact .refl s
  · exact .refl s
  · exact s.armPassed_raises _

theorem State.disarmCommand_raises (s : State) : Raises s s.disarmCommand.1 := by
  unfold State.disarmCommand
  split
  · exact .refl s
  · exact .refl s
  · exact .one _ rfl
  · exact (Raises.of_eq rfl).trans (State.judgeStopping_raises _)

theorem State.regionWrite_raises (s : State) (params : List Byte) : Raises s (s.regionWrite params).1 := by
  unfold State.regionWrite
  repeat' split
  all_goals exact .of_eq rfl

theorem State.groupSet_raises (s : State) (group pin : Byte) : Raises s (s.groupSet group pin).1 := by
  unfold State.groupSet
  repeat' split
  all_goals exact .of_eq rfl

theorem State.portSet_raises (s : State) (timeout share : Byte) : Raises s (s.portSet timeout share).1 := by
  unfold State.portSet
  repeat' split
  all_goals exact .of_eq rfl

theorem State.portRecover_raises (s : State) (now : Nat) : Raises s (s.portRecover now).1 := by
  unfold State.portRecover
  split
  all_goals exact .of_eq rfl

/-! ### The management commands: what they answer (R150) -/

/-- The state with other records in its event queue. -/
def State.withRecords (s : State) (others : List EventRecord) : State := { s with events := { s.events with queue := others } }

/-- The reply of a command does not depend on what the records hold, but on their number at most. -/
def BlindToRecords (f : State → State × Reply) : Prop :=
  ∀ (s : State) (others : List EventRecord), others.length = s.events.queue.length → (f (s.withRecords others)).2 = (f s).2

theorem statusLayout_blind : BlindToRecords fun s => (s, .done s.statusLayout) := by
  intro s others hlen
  simp only [State.statusLayout, State.withRecords, hlen]

/-- The group records after a flip request are made of the group records and the other blocks alone. -/
theorem State.requestFlip_withRecords (s : State) (others : List EventRecord) (g : GroupIx) (source : Cause) :
    ((s.withRecords others).requestFlip g source).1.groups = (s.requestFlip g source).1.groups ∧
      ((s.withRecords others).requestFlip g source).2 = (s.requestFlip g source).2 := by
  have hflip : ((s.withRecords others).takeFlip g).groups = (s.takeFlip g).groups := by
    simp only [State.takeFlip_eq]
    rfl
  have hgroups : (s.withRecords others).groups = s.groups := rfl
  have hpart : (s.withRecords others).partWay g = s.partWay g := rfl
  cases hstate : s.groups[g].state with
  | ready =>
    simp only [State.requestFlip, hgroups, hpart, hstate]
    repeat' split
    · exact ⟨rfl, rfl⟩
    · exact ⟨rfl, rfl⟩
    · exact ⟨hflip, rfl⟩
  | _ =>
    simp [-Fin.getElem_fin, State.requestFlip, hgroups, hstate]

theorem flipCommand_blind (group : Byte) : BlindToRecords fun s => s.flipCommand group := by
  intro s others _
  have hmode : (s.withRecords others).mode = s.mode := rfl
  simp only [State.flipCommand, hmode]
  repeat' split
  · rfl
  · rfl
  · rename_i g _ _
    obtain ⟨hgroups, houtcome⟩ := s.requestFlip_withRecords others g .command
    simp only [hgroups, houtcome]

theorem releaseCommand_blind (group : Byte) : BlindToRecords fun s => s.releaseCommand group := by
  intro s others _
  have hmode : (s.withRecords others).mode = s.mode := rfl
  have hgroups : (s.withRecords others).groups = s.groups := rfl
  have hregions : (s.withRecords others).regions = s.regions := rfl
  simp only [State.releaseCommand, State.releaseHeld, hmode, hgroups, hregions]
  repeat' split
  all_goals rfl

/-- The mode in which judging the end of STARTING leaves the part (R162). -/
theorem State.judgeStarting_mode (s : State) :
    s.judgeStarting.mode = if s.mode = .starting && s.scrub.jobs.isEmpty then .run else s.mode := by
  unfold State.judgeStarting
  split <;> simp_all

/-- The mode in which judging the end of STOPPING leaves the part (R166). -/
theorem State.judgeStopping_mode (s : State) :
    s.judgeStopping.mode = if s.mode = .stopping && s.rundownDone then .bypass else s.mode := by
  unfold State.judgeStopping
  split <;> simp_all

/-- The mode in which an ARM leaves the part is a matter of its jobs (R159, R162). -/
theorem State.armPassed_mode_withRecords (s : State) (others : List EventRecord) (option : ArmOption) :
    ((s.withRecords others).armPassed option).mode = (s.armPassed option).mode := by
  simp only [State.armPassed, State.judgeStarting_mode]
  split <;> simp [State.withRecords, State.appendJobs]

theorem armCommand_blind (code : Byte) : BlindToRecords fun s => s.armCommand code := by
  intro s others _
  have hmode : (s.withRecords others).mode = s.mode := rfl
  have hregions : (s.withRecords others).regions = s.regions := rfl
  simp only [State.armCommand, State.armPassed_mode_withRecords, jobsAppended, hmode, hregions]
  repeat' split
  all_goals rfl

theorem disarmCommand_blind : BlindToRecords fun s => s.disarmCommand := by
  intro s others _
  have hmode : (s.withRecords others).mode = s.mode := rfl
  have hrun : (s.withRecords others).disarmRun.mode = s.disarmRun.mode := by
    simp only [State.disarmRun, State.judgeStopping_mode]
    rfl
  simp only [State.disarmCommand, State.disarmStarting_mode, hmode, hrun]
  repeat' split
  all_goals rfl

theorem regionWrite_blind (params : List Byte) : BlindToRecords fun s => s.regionWrite params := by
  intro s others _
  have hmode : (s.withRecords others).mode = s.mode := rfl
  simp only [State.regionWrite, hmode]
  repeat' split
  all_goals rfl

theorem groupSet_blind (group pin : Byte) : BlindToRecords fun s => s.groupSet group pin := by
  intro s others _
  simp only [State.groupSet]
  repeat' split
  all_goals rfl

theorem portSet_blind (timeout share : Byte) : BlindToRecords fun s => s.portSet timeout share := by
  intro s others _
  simp only [State.portSet]
  repeat' split
  all_goals rfl

theorem portRecover_blind (now : Nat) : BlindToRecords fun s => s.portRecover now := by
  intro s others _
  have hport : (s.withRecords others).port = s.port := rfl
  simp only [State.portRecover, hport]
  split
  all_goals rfl

/-! ### The last bit of a frame (R174) -/

/-- The frame is executed: RESET is not asserted and the link takes it. -/
def State.executes (s : State) (frame : List Byte) : Bool := !s.resetAsserted && s.link.takes frame

theorem State.receive_events (s : State) (frame : List Byte) (done : State × Reply) :
    (s.receive frame done).events = if s.executes frame then done.1.events else s.events := by
  obtain ⟨hr, h⟩ | ⟨hr, ht, h⟩ | ⟨hr, ht, h⟩ := s.receive_cases frame done
  all_goals simp [State.executes, *]

/-- The link after the last bit of a frame is the same from every event block that leads to the same reply. -/
theorem State.receive_link_of_reply {s : State} {b : EventBlock} {frame : List Byte} {done other : State × Reply}
    (h : other.2 = done.2) : (State.receive { s with events := b } frame other).link = (s.receive frame done).link := by
  simp only [State.receive]
  repeat' split
  · rfl
  · simp only [State.respond_link, h]
  · rfl

theorem Raises.receive {s : State} {done : State × Reply} (h : Raises s done.1) (frame : List Byte) :
    Raises s (s.receive frame done) := by
  obtain ⟨rs, hrs⟩ := h
  by_cases hx : s.executes frame = true
  · exact ⟨rs, by simp only [State.receive_events, hx, if_true, hrs]⟩
  · exact .of_eq (by simp only [State.receive_events, hx, if_false, Bool.false_eq_true])

/-! ### Every command, by what it does to the records and the link -/

/-- What a command is, seen from the event block and the management link: a step of a block inside the part; a frame whose
execution raises records only and whose reply is blind to the records; or one of the four that are neither. -/
inductive CommandShape : Instr → Prop where
  | block {c : Instr} (f : State → State) (hexec : ∀ s, exec c s = .next (s.unlessReset (f s)))
      (hstep : ∀ s, BlockStep s (f s)) : CommandShape c
  | frame {c : Instr} (bytes : List Byte) (f : State → State × Reply) (hexec : ∀ s, exec c s = .next (s.receive bytes (f s)))
      (hraises : ∀ s, Raises s (f s).1) (hblind : BlindToRecords f) : CommandShape c
  | transferEnd (bytes : List Byte) : CommandShape (.transferEnd bytes)
  | reset : CommandShape .reset
  | eventTake : CommandShape .eventTake
  | attnMaskSet (high low : Byte) : CommandShape (.attnMaskSet high low)

/-- A command that only reads answers from the blocks that its reply is made of. -/
theorem CommandShape.read {c : Instr} (bytes : List Byte) (reply : State → Reply)
    (hexec : ∀ s, exec c s = .next (s.receive bytes (s, reply s))) (hblind : BlindToRecords fun s => (s, reply s)) :
    CommandShape c :=
  .frame bytes (fun s => (s, reply s)) hexec Raises.refl hblind

theorem commandShape_badFrame (bytes : List Byte) : CommandShape (.badFrame bytes) := by
  by_cases hbad : (frameComplete bytes && frameRefused bytes) = true
  · exact .read bytes (fun _ => { status := .badFrame, data := [] })
      (fun s => by simp only [exec, execBadFrame, hbad, if_true]) fun _ _ _ => rfl
  · exact .block id (fun s => by simp only [exec, execBadFrame, hbad, id, State.unlessReset_self]; rfl) BlockStep.refl

theorem commandShape (c : Instr) : CommandShape c := by
  cases c with
  | hostRequest arriving =>
    exact .block (fun s => (s.arrive arriving).takeNext) (fun _ => rfl)
      fun s => .after (s.arrive arriving).takeNext_blockStep rfl rfl
  | contribution => exact .block State.presentNext (fun _ => rfl) State.presentNext_blockStep
  | stalledReadPresented => exact .block State.presentStalled (fun _ => rfl) State.presentStalled_blockStep
  | grant now => exact .block (·.makeGrant now) (fun _ => rfl) (·.makeGrant_blockStep now)
  | responseTaken m now => exact .block (·.takeResponse m now) (fun _ => rfl) (·.takeResponse_blockStep m now)
  | responseTimeout => exact .block State.lapse (fun _ => rfl) State.lapse_blockStep
  | probeAnswered number => exact .block (·.takeProbe number) (fun _ => rfl) (·.takeProbe_blockStep number)
  | probeTimeout => exact .block State.lapseProbe (fun _ => rfl) State.lapseProbe_blockStep
  | flipEdge => exact .block State.takeEdge (fun _ => rfl) State.takeEdge_blockStep
  | reset => exact .reset
  | transferEnd bytes => exact .transferEnd bytes
  | badFrame bytes => exact commandShape_badFrame bytes
  | status => exact .read _ (fun s => .done s.statusLayout) (fun _ => rfl) statusLayout_blind
  | regionWrite params =>
    exact .frame _ (·.regionWrite params.toList) (fun _ => rfl) (·.regionWrite_raises _) (regionWrite_blind _)
  | regionRead index fill => exact .read _ _ (fun _ => rfl) fun _ _ _ => rfl
  | groupSet group pin =>
    exact .frame _ (·.groupSet group pin) (fun _ => rfl) (·.groupSet_raises group pin) (groupSet_blind group pin)
  | groupRead group fill => exact .read _ _ (fun _ => rfl) fun _ _ _ => rfl
  | arm option fill => exact .frame _ (·.armCommand option) (fun _ => rfl) (·.armCommand_raises option) (armCommand_blind option)
  | disarm => exact .frame _ State.disarmCommand (fun _ => rfl) State.disarmCommand_raises disarmCommand_blind
  | flip group fill => exact .frame _ (·.flipCommand group) (fun _ => rfl) (·.flipCommand_raises group) (flipCommand_blind group)
  | release group fill =>
    exact .frame _ (·.releaseCommand group) (fun _ => rfl) (·.releaseCommand_raises group) (releaseCommand_blind group)
  | eventTake => exact .eventTake
  | attnMaskSet high low => exact .attnMaskSet high low
  | attnMaskRead => exact .read _ (fun s => .done (natBytes 2 s.events.mask.toNat)) (fun _ => rfl) fun _ _ _ => rfl
  | portSet timeout share =>
    exact .frame _ (·.portSet timeout share) (fun _ => rfl) (·.portSet_raises timeout share) (portSet_blind timeout share)
  | portRecover now => exact .frame _ (·.portRecover now) (fun _ => rfl) (·.portRecover_raises now) (portRecover_blind now)
  | scrubStatus => exact .read _ (fun s => .done s.scrub.layout) (fun _ => rfl) fun _ _ _ => rfl
  | queuePeek position fill => exact .read _ (fun s => peekReply s.merge.queue position) (fun _ => rfl) fun _ _ _ => rfl

/-- Every command but EVENT_TAKE, ATTN_MASK_SET and RESET changes the event block by raising records only (R148). -/
theorem exec_raises {c : Instr} {s t : State} (htake : c ≠ .eventTake) (hset : ∀ high low, c ≠ .attnMaskSet high low)
    (hreset : c ≠ .reset) (h : exec c s = .next t) : Raises s t := by
  cases commandShape c with
  | block f hexec hstep =>
    obtain rfl := Host.Outcome.next.inj ((hexec s).symm.trans h)
    exact (hstep s).unlessReset.raises
  | frame bytes f hexec hraises hblind =>
    obtain rfl := Host.Outcome.next.inj ((hexec s).symm.trans h)
    exact (hraises s).receive bytes
  | transferEnd bytes =>
    obtain rfl := Host.Outcome.next.inj h
    exact .of_eq rfl
  | reset => exact absurd rfl hreset
  | eventTake => exact absurd rfl htake
  | attnMaskSet high low => exact absurd rfl (hset high low)

/-- The link after a command other than EVENT_TAKE does not depend on what the records hold (R150). -/
theorem exec_link_withRecords {c : Instr} {s t u : State} {others : List EventRecord} (htake : c ≠ .eventTake)
    (hlen : others.length = s.events.queue.length) (h : exec c s = .next t) (hu : exec c (s.withRecords others) = .next u) :
    u.link = t.link := by
  cases commandShape c with
  | block f hexec hstep =>
    obtain rfl := Host.Outcome.next.inj ((hexec s).symm.trans h)
    obtain rfl := Host.Outcome.next.inj ((hexec (s.withRecords others)).symm.trans hu)
    calc ((s.withRecords others).unlessReset (f (s.withRecords others))).link
      _ = (s.withRecords others).link := (hstep _).unlessReset.link
      _ = (s.unlessReset (f s)).link := (hstep s).unlessReset.link.symm
  | frame bytes f hexec hraises hblind =>
    obtain rfl := Host.Outcome.next.inj ((hexec s).symm.trans h)
    obtain rfl := Host.Outcome.next.inj ((hexec (s.withRecords others)).symm.trans hu)
    exact State.receive_link_of_reply (hblind s others hlen)
  | transferEnd bytes =>
    obtain rfl := Host.Outcome.next.inj h
    obtain rfl := Host.Outcome.next.inj hu
    rfl
  | reset =>
    obtain rfl := Host.Outcome.next.inj h
    obtain rfl := Host.Outcome.next.inj hu
    rfl
  | eventTake => exact absurd rfl htake
  | attnMaskSet high low =>
    obtain rfl := Host.Outcome.next.inj h
    obtain rfl := Host.Outcome.next.inj hu
    exact State.receive_link_of_reply rfl

/-! ### EVENT_TAKE and ATTN_MASK_SET on the event block -/

/-- EVENT_TAKE removes the head record and changes nothing else of the queue, the counters and the mask (R150). -/
theorem exec_eventTake_events {s t : State} (h : exec .eventTake s = .next t) :
    t.events.mask = s.events.mask ∧
      t.events.queue = if s.executes (frameOf .eventTake) then s.events.queue.tail else s.events.queue := by
  obtain rfl := Host.Outcome.next.inj h
  rw [State.receive_events]
  cases hq : s.events.queue <;> split <;> simp [State.eventTake, EventBlock.sync, hq]

/-- ATTN_MASK_SET leaves the records (R152). -/
theorem exec_attnMaskSet_queue {high low : Byte} {s t : State} (h : exec (.attnMaskSet high low) s = .next t) :
    t.events.queue = s.events.queue := by
  obtain rfl := Host.Outcome.next.inj h
  rw [State.receive_events]
  split <;> rfl

/-- Every command but EVENT_TAKE and RESET leaves each record held in its place (R150). -/
theorem exec_queue_appends {c : Instr} {s t : State} (htake : c ≠ .eventTake) (hreset : c ≠ .reset) (h : exec c s = .next t) :
    ∃ stored, t.events.queue = s.events.queue ++ stored := by
  by_cases hset : ∃ high low, c = .attnMaskSet high low
  · obtain ⟨high, low, rfl⟩ := hset
    exact ⟨[], by rw [exec_attnMaskSet_queue h, List.append_nil]⟩
  · exact (exec_raises htake (fun high low hc => hset ⟨high, low, hc⟩) hreset h).queue_appends

/-- Every command but ATTN_MASK_SET and RESET keeps the mask (R152). -/
theorem exec_mask {c : Instr} {s t : State} (hset : ∀ high low, c ≠ .attnMaskSet high low) (hreset : c ≠ .reset)
    (h : exec c s = .next t) : t.events.mask = s.events.mask := by
  by_cases htake : c = .eventTake
  · subst htake
    exact (exec_eventTake_events h).1
  · exact (exec_raises htake hset hreset h).mask_eq

/-- The mask that two bytes carry, bit by bit (R181). -/
theorem maskOf_getLsbD (high low : Byte) {k : Nat} (hk : k < 16) :
    (maskOf high low).getLsbD k = (decide (k < 12) && (high ++ low).getLsbD k) := by
  have hbits : (0x0FFF#16).getLsbD k = decide (k < 12) := by interval_cases k <;> rfl
  rw [maskOf, BitVec.getLsbD_and, hbits, Bool.and_comm]

/-- EVENT_TAKE returns the record and the number left that it finds, under every mask (R150, R152). -/
theorem eventTake_reply_under_mask (s : State) (m : Half) (a : Bool) :
    (State.eventTake { s with events := { s.events with mask := m, attn := a } }).2 = s.eventTake.2 := by
  simp only [State.eventTake]
  cases s.events.queue <;> rfl

/-! ### The obligations -/

/-- Settles O26: EVENT_TAKE by the two forms of the queue, and every other command by its shape. -/
theorem eventTakeRemovesHead : Obligations.EventTakeRemovesHead := by
  unfold Obligations.EventTakeRemovesHead
  intro s
  have htake : exec .eventTake s = .next (s.receive (frameOf .eventTake) s.eventTake) := rfl
  refine ⟨?_, ?_, ?_, ?_, ?_⟩
  · intro e rest hq hl
    rw [htake, State.receive_of_listens hl]
    refine ⟨_, rfl, ?_, ?_⟩
    · simp only [State.respond_events, State.eventTake, hq, EventBlock.sync, EventBlock.attention_iff]
    · simp only [State.eventTake, hq, EventRecord.layout_eq]
      rfl
  · intro hq hl
    rw [htake, State.receive_of_listens hl]
    simp only [State.eventTake, hq]
    rfl
  · refine ⟨s.statusLayout, fun hl => ?_, rfl, rfl⟩
    exact congrArg Host.Outcome.next (State.receive_of_listens hl _)
  · exact fun c t hc hr h => exec_queue_appends hc hr h
  · exact fun c t u others hc hlen h hu => exec_link_withRecords hc hlen h hu

/-- Settles O27: what the mask governs is ATTN alone, and only ATTN_MASK_SET and RESET write it. -/
theorem attnMaskSetReplacesMask : Obligations.AttnMaskSetReplacesMask := by
  unfold Obligations.AttnMaskSetReplacesMask
  intro s
  refine ⟨⟨_, rfl, fun kind => BitVec.getLsbD_zero⟩, ?_, ?_, fun c t hset hr h => exec_mask hset hr h, ?_⟩
  · intro high low hl
    refine ⟨_, congrArg Host.Outcome.next (State.receive_of_listens hl _), fun k hk => maskOf_getLsbD high low hk, ?_, rfl⟩
    exact EventBlock.attention_iff _
  · intro hl
    rw [← natBytes_half]
    exact congrArg Host.Outcome.next (State.receive_of_listens hl _)
  · rintro b r hb
    rw [hb]
    obtain ⟨hqueue, hserial, hloss⟩ := s.events.raise_under_mask b.mask b.attn r
    refine ⟨hqueue, hserial, hloss, fun t u ht hu => ⟨?_, ?_⟩, fun t u ht hu => ?_⟩
    · obtain rfl := Host.Outcome.next.inj ht
      obtain rfl := Host.Outcome.next.inj hu
      exact State.receive_link_of_reply (eventTake_reply_under_mask s _ _)
    · rw [(exec_eventTake_events ht).2, (exec_eventTake_events hu).2]
      rfl
    · obtain rfl := Host.Outcome.next.inj ht
      obtain rfl := Host.Outcome.next.inj hu
      exact State.receive_link_of_reply rfl

end Sys2Proof.Machine
end
